-- ==== Sys2Proof/Word.lean ====
section
/-! DEFINITION. The byte, the two host ports, and the fixed-size tables (two ports, eight lanes, routes or
phase entries) the part is built from. Bits are used where the manual names bits; counts, rows and times are Nat and web
positions are Int. -/

namespace Sys2Proof

/-- One byte of a packet or one pixel (00, Sizes and rates: pixels are 8 bits deep). -/
abbrev Byte := BitVec 8

/-- Host port A or host port B (09). -/
inductive Port where
  | a
  | b
deriving DecidableEq, Repr

/-- One value for each host port. -/
structure Both (α : Type) where
  a : α
  b : α
deriving DecidableEq, Repr

/-- The value that belongs to a port. -/
def Both.get {α : Type} (t : Both α) : Port → α
  | .a => t.a
  | .b => t.b

/-- Replace the value of one port. -/
def Both.set {α : Type} (t : Both α) (p : Port) (x : α) : Both α :=
  match p with
  | .a => { t with a := x }
  | .b => { t with b := x }

/-- One value for each of eight like things: lanes, routes or phase entries (00, Fixed numbers). -/
structure Eight (α : Type) where
  e0 : α
  e1 : α
  e2 : α
  e3 : α
  e4 : α
  e5 : α
  e6 : α
  e7 : α
deriving DecidableEq, Repr

/-- The same value eight times. -/
def Eight.const {α : Type} (x : α) : Eight α := ⟨x, x, x, x, x, x, x, x⟩

/-- The value at an index. -/
def Eight.get {α : Type} (t : Eight α) (i : Fin 8) : α :=
  match i.val with
  | 0 => t.e0
  | 1 => t.e1
  | 2 => t.e2
  | 3 => t.e3
  | 4 => t.e4
  | 5 => t.e5
  | 6 => t.e6
  | _ => t.e7

/-- Replace the value at an index. -/
def Eight.set {α : Type} (t : Eight α) (i : Fin 8) (x : α) : Eight α :=
  match i.val with
  | 0 => { t with e0 := x }
  | 1 => { t with e1 := x }
  | 2 => { t with e2 := x }
  | 3 => { t with e3 := x }
  | 4 => { t with e4 := x }
  | 5 => { t with e5 := x }
  | 6 => { t with e6 := x }
  | _ => { t with e7 := x }

/-- Apply a function at every index. -/
def Eight.map {α β : Type} (t : Eight α) (f : α → β) : Eight β :=
  ⟨f t.e0, f t.e1, f t.e2, f t.e3, f t.e4, f t.e5, f t.e6, f t.e7⟩

/-- The values in ascending order of index. -/
def Eight.toList {α : Type} (t : Eight α) : List α :=
  [t.e0, t.e1, t.e2, t.e3, t.e4, t.e5, t.e6, t.e7]

/-- The eight indices in ascending order. -/
def indices : List (Fin 8) := [0, 1, 2, 3, 4, 5, 6, 7]

end Sys2Proof
end

