-- ==== Sys2Proof/Syntax.lean ====
section
/-! DEFINITION. The commands: one constructor for each row of spec/opcode_table.json. A host command's constructor names the
port from whose inbound buffer the Run Controller takes the packet (R157, R168); the packet itself stands in that buffer. A
received packet's constructor carries the bytes that arrived from its start marker on (R51, R155). -/

namespace Sys2Proof

/-- The encoder line whose level changes at a valid quadrature transition (R3). -/
inductive EncLine where
  | encA
  | encB
deriving DecidableEq, Repr

/-- The steps of the part (95_what_each_step_holds.md: each whole and indivisible). -/
inductive Instr where
  -- taking a command packet from the inbound buffer of a host port
  | identify (p : Port)
  | getStatus (p : Port)
  | getStats (p : Port)
  | getConfig (p : Port)
  | setScale (p : Port)
  | setPhases (p : Port)
  | setLane (p : Port)
  | setFraming (p : Port)
  | setLayout (p : Port)
  | setStore (p : Port)
  | setRoute (p : Port)
  | setPort (p : Port)
  | setNotices (p : Port)
  | runStart (p : Port)
  | runStop (p : Port)
  | reset (p : Port)
  | pause (p : Port)
  | resume (p : Port)
  | revoke (p : Port)
  | retain (p : Port)
  | release (p : Port)
  | reread (p : Port)
  | setLead (p : Port)
  | clearNotices (p : Port)
  | setLoop (p : Port)
  | unknownKind (p : Port)
  -- resets
  | commandReset
  /-- PWR_OK rises while the encoder lines stand at these levels (R22, R177). -/
  | powerUp (encA encB : Bool)
  -- signal lines and web position
  /-- One encoder line changes with the other steady (R3). -/
  | count (line : EncLine)
  | encoderError
  /-- An edge on ENC_Z, rising or falling (R17). -/
  | indexEdge (rising : Bool)
  | stall
  | stallCloseExpiry
  -- triggers
  | entryIssue
  | strobePulseEnd
  | groupDone
  | triggersEnded
  -- camera lanes
  | laneLinkUp (lane : Fin 8)
  | laneLinkLoss (lane : Fin 8)
  /-- The bytes a lane receives from one start marker on (R51). -/
  | lanePacketReceived (lane : Fin 8) (bytes : List Byte)
  | lineTimeout (lane : Fin 8)
  | placementComplete (lane : Fin 8)
  -- framing and run control
  | rewindHoldClear
  | closeAtStop
  | endOfDraining
  -- host ports
  | portLinkUp (p : Port)
  | portLinkLoss (p : Port)
  /-- The bytes a host port receives from one start marker on (R155). -/
  | hostPacketReceived (p : Port) (bytes : List Byte)
  | replySent (p : Port)
  | noticeSent
  | frameOpenSent (p : Port)
  | tileSegmentSent (p : Port)
  | tileAbortSent (p : Port)
  | frameEndSent (p : Port)
  | rereadSegmentSent (p : Port)
  | stagedPortRecord (p : Port)
  | idleTimerExpiry (p : Port)
  | restSent (p : Port)
  | wakeTimerExpiry (p : Port)
  | pwrOkLow
deriving DecidableEq, Repr

end Sys2Proof
end

