-- ==== Sys2Proof/Machine/Bytes.lean ====
section
/-! DEFINITION. Byte order, masks and the two packet checks (00, Conventions; 12.1; R187). -/

namespace Sys2Proof.Machine

/-- The n low bytes of a number, least significant byte first (00, Byte order). -/
def le : Nat → Nat → List Byte
  | 0, _ => []
  | n + 1, v => BitVec.ofNat 8 v :: le n (v / 256)

/-- A signed number in n bytes, two's complement, least significant byte first (12). -/
def leSigned (n : Nat) (v : Int) : List Byte := le n (v % (2 ^ (8 * n) : Nat)).toNat

/-- The number whose bytes these are, least significant byte first. -/
def fromLe : List Byte → Nat
  | [] => 0
  | b :: bs => b.toNat + 256 * fromLe bs

/-- Flags as the bits of a number, the first flag in bit 0. -/
def bits : List Bool → Nat
  | [] => 0
  | b :: bs => b.toNat + 2 * bits bs

/-- A set of members 0 to 7 as a mask with bit i for member i (12.2). -/
def maskOf (members : List Nat) : Nat := bits ((List.range 8).map fun i => members.contains i)

/-- One bit of the header check: polynomial 0x1021, most significant bit first (R187). -/
def crc16Bit (c : Nat) : Nat := if c < 0x8000 then 2 * c else (2 * c % 0x10000) ^^^ 0x1021

/-- Feed one byte to the header check. -/
def crc16Byte (c : Nat) (b : Byte) : Nat := (List.range 8).foldl (fun c _ => crc16Bit c) (c ^^^ (b.toNat * 256))

/-- The header check: CRC-16 with initial value 0xFFFF, no reflection, no final inversion (R187). -/
def crc16 (bs : List Byte) : Nat := bs.foldl crc16Byte 0xFFFF

/-- One bit of the payload check: polynomial 0x04C11DB7 in reflected form (R187). -/
def crc32Bit (c : Nat) : Nat := if c % 2 = 0 then c / 2 else (c / 2) ^^^ 0xEDB88320

/-- Feed one byte to the payload check. -/
def crc32Byte (c : Nat) (b : Byte) : Nat := (List.range 8).foldl (fun c _ => crc32Bit c) (c ^^^ b.toNat)

/-- The payload check: reflected CRC-32 with initial value and final exclusive-or 0xFFFFFFFF (R187). -/
def crc32 (bs : List Byte) : Nat := (bs.foldl crc32Byte 0xFFFFFFFF) ^^^ 0xFFFFFFFF

/-- The value counted up by n without passing the value at which it saturates (R184). -/
def satAdd (top n c : Nat) : Nat := min top (c + n)

/-- x divided by y, rounded up. -/
def ceilDiv (x y : Nat) : Nat := (x + y - 1) / y

/-- The least of a list of positions, none for the empty list. -/
def least : List Int → Option Int
  | [] => none
  | x :: xs => some (xs.foldl min x)

end Sys2Proof.Machine
end

