-- ==== Sys2Proof/Config.lean ====
section
/-! DEFINITION. The fixed numbers of the part (00, Fixed numbers), and the values the manual leaves open. -/

namespace Sys2Proof.Config

/-- Trigger records per lane (00; R34, R53). -/
def recordsPerLane : Nat := 64

/-- Line buffers per lane (00; R52). -/
def lineBuffers : Nat := 2

/-- Pixel bytes a line buffer keeps (R52). -/
def lineBufferBytes : Nat := 16384

/-- Bytes of the line store (00; R87). -/
def storeBytes : Nat := 4294967296

/-- The cap on the row capacity (R87). -/
def maxRows : Nat := 65535

/-- Frames not yet closed (R69). -/
def openLimit : Nat := 4

/-- Retained frames plus held slots (R97). -/
def retainLimit : Nat := 4

/-- Fill-run entries per frame (R102). -/
def fillRunLimit : Nat := 32

/-- Inbound buffer per port (R156). -/
def inboundLimit : Nat := 16

/-- Payload bytes a place of the inbound buffer keeps (R155). -/
def inboundPayload : Nat := 256

/-- Reply queue per port (R157). -/
def replyLimit : Nat := 8

/-- Notice queue of port A (R158, R182). -/
def noticeLimit : Nat := 16

/-- Reread queue per port (R146). -/
def rereadLimit : Nat := 8

/-- The value at which a counter saturates, and the greatest interval I (R15, R184). -/
def counterMax : Nat := 4294967295

/-- The value at which the pending index edges and the skipped groups saturate (R17, R36). -/
def edgeMax : Nat := 65535

/-- The least and the greatest tick index (R9). -/
def tickMin : Int := -140737488355328
def tickMax : Int := 140737488355327

/-- Units of the 10 ns interval timebase in 0.1 µs, in 1 µs, in 1 ms and in 1 s (00, Time). -/
def unitsPerTenthUs : Nat := 10
def unitsPerUs : Nat := 100
def unitsPerMs : Nat := 100000
def unitsPerS : Nat := 100000000

/-- The wake time, 20 µs (R164). -/
def wakeUs : Nat := 20

/-- The byte a read would deliver at a store address for a row of a lane that is UNRESOLVED. R103 says that no read reaches such
a row, and names no byte for it: a free value (assumption 10). -/
opaque unresolvedByte : Nat → Byte

/-- The reverse debt as the status record shows it where it does not fit the field's signed 48 bits. R20 gives no value for it: a free
value of the debt (assumption 30). -/
opaque wideDebt (debt : Int) : BitVec 48

/-- The Tags of a route's FRAME_OPEN and FRAME_END for a frame. The manual gives the Tag of every other packet kind (R134, R145,
R158, R163, R170) and none for these two: free values within the Tag's range of 12.1 (assumption 12). -/
opaque frameOpenTag (route : Fin 8) (frame : Nat) : Fin 65536
opaque frameEndTag (route : Fin 8) (frame : Nat) : Fin 65536

end Sys2Proof.Config
end

