-- ==== Sys2Proof/Machine/State.lean ====
section
/-! DEFINITION. The state of the part, block by block, and its value right after power-up. Each structure names the chapter and
rule of spec/ that names its fields. Timers are kept as the clock reading at which they started (none: not running), so that the
passing of time changes the clock alone (assumption 2). -/

namespace Sys2Proof.Machine

/-! ## Named values (12.2) -/

/-- Run state (10.4). -/
inductive RunState where
  | config | running | draining
deriving DecidableEq, Repr

/-- Framing state (4.1). -/
inductive FramingState where
  | seeking | tracking
deriving DecidableEq, Repr

/-- Motion state (1.1). -/
inductive Motion where
  | stalled | moving
deriving DecidableEq, Repr

/-- Direction, a reading of the reverse debt (R10). -/
inductive Direction where
  | forward | reverse
deriving DecidableEq, Repr

/-- Web face a camera sees (00, Terms). -/
inductive Side where
  | top | bottom
deriving DecidableEq, Repr

/-- Lane state (3.3). -/
inductive LaneState where
  | disabled | down | ready | active | rejoin
deriving DecidableEq, Repr

/-- Link state of a host port (R153). -/
inductive LinkState where
  | down | up | resting | waking
deriving DecidableEq, Repr

/-- Framing mode (R65). -/
inductive FramingMode where
  | indexed | fixed
deriving DecidableEq, Repr

/-- Overflow policy (R86). -/
inductive OverflowPolicy where
  | dropNew | dropOldest
deriving DecidableEq, Repr

/-- Boundary kind (R68). -/
inductive BoundaryKind where
  | index | synth | fixed
deriving DecidableEq, Repr

/-- Close reason of a closed frame (5.2). -/
inductive CloseReason where
  | normal | truncated | shortStall | shortRewind | shortStop
deriving DecidableEq, Repr

/-- Cause of a filled row (R100). -/
inductive FillCause where
  | lost | check | behind | overspeed | laneDown | rejoin
deriving DecidableEq, Repr

/-- Why a frame was dropped (R69, R70, R77). -/
inductive DropReason where
  | openLimit | noSlot | empty
deriving DecidableEq, Repr

/-- Slot state (R88). -/
inductive SlotState where
  | free | opened | closed | held
deriving DecidableEq, Repr

/-- State of a delivery record (R125). -/
inductive RecordState where
  | pending | opened | done | revoked | skipped | aborted
deriving DecidableEq, Repr

/-- How a packet's payload check was judged (R51, R155). -/
inductive CheckMark where
  | pass | fail | absent
deriving DecidableEq, Repr

/-- What a row of a lane and plane holds (5.2). -/
inductive Mark where
  | unresolved | written | filled
deriving DecidableEq, Repr

/-- Result codes (10.3). -/
inductive Result where
  | ok | unknownKind | badLength | badValue | conflict | busy | denied | notFound | limit | badCheck
deriving DecidableEq, Repr

/-- Notice sources, in the order of the table of 11.2. -/
inductive Source where
  | laneDown | laneUp | overspeed | withheld | stall | motion | rewind | indexSynth | indexSpurious | frameDropped
  | frameShort | evicted | portDown | linkErrors | cmdOverrun | runState
deriving DecidableEq, Repr

/-! ## Packets (12.1) -/

/-- A packet the part sends; its checks follow from these fields (R187). -/
structure Packet where
  kind : Nat
  stream : Nat
  tag : Nat
  payload : List Byte
deriving DecidableEq, Repr

/-- A place of the inbound buffer: the header, up to 256 payload bytes and the judged payload check (R155, R156). -/
structure InPacket where
  kind : Nat
  stream : Nat
  tag : Nat
  length : Nat
  payload : List Byte
  check : CheckMark
deriving DecidableEq, Repr

/-! ## Position Tracker (01) -/

/-- The scale record (R1): encoder step and line pitch in nm, stall time in ms, stall close time in s, reverse limit in ticks. -/
structure ScaleRecord where
  step : Nat
  pitch : Nat
  swapped : Bool
  indexFalling : Bool
  stallMs : Nat
  stallCloseS : Nat
  reverseLimit : Nat
deriving DecidableEq, Repr

/-- The defaults of R1. -/
def ScaleRecord.default : ScaleRecord :=
  { step := 10000, pitch := 100000, swapped := false, indexFalling := false, stallMs := 50, stallCloseS := 5,
    reverseLimit := 2000 }

/-- The Position Tracker's state (1.1). -/
structure Ptk where
  scale : ScaleRecord
  quadA : Bool
  quadB : Bool
  encoderCount : BitVec 32
  acc : Nat
  tick : Int
  high : Int
  motion : Motion
  stallTimer : Option Nat
  stallCloseTimer : Option Nat
  tickTimer : Option Nat
  interval : Option Nat
  pendingEdges : Nat
deriving DecidableEq, Repr

/-- The values of R22, with the levels of the encoder lines and the clock at the reset. -/
def Ptk.reset (encA encB : Bool) (now : Nat) : Ptk :=
  { scale := ScaleRecord.default, quadA := encA, quadB := encB, encoderCount := 0, acc := 0, tick := 0, high := 0,
    motion := .stalled, stallTimer := none, stallCloseTimer := some now, tickTimer := none, interval := none,
    pendingEdges := 0 }

/-! ## Trigger Unit (02) -/

/-- A phase entry (R24): exposure in 0.1 µs. -/
structure PhaseEntry where
  plane : Fin 4
  strobe : BitVec 6
  exposure : Nat
  endOfGroup : Bool
deriving DecidableEq, Repr

/-- The default of every entry (R24). -/
def PhaseEntry.default : PhaseEntry := { plane := 0, strobe := 0x01, exposure := 50, endOfGroup := true }

/-- Loop bounds (R24). -/
structure LoopBounds where
  first : Fin 8
  last : Fin 8
deriving DecidableEq, Repr

/-- The group in progress (2.1, R31): its tick, the time of its tick, its entries, how many of them have been issued, and
whether a boundary set the entry pointer while the group was busy. -/
structure Group where
  tick : Int
  time : Nat
  entries : List (Fin 8)
  issued : Nat
  pointerSet : Bool
deriving DecidableEq, Repr

/-- The Trigger Unit's state (2.1): spacing in 0.1 µs; the strobe outputs SO0 to SO5 and the end of the pulse on them (R32). The
group-busy timer runs exactly while a group is in progress, from the time of its tick (R31). -/
structure Tru where
  table : Eight PhaseEntry
  loop : LoopBounds
  staged : Option LoopBounds
  spacing : Nat
  pointer : Fin 8
  group : Option Group
  skipped : Nat
  strobes : BitVec 6
  pulseEnd : Option Nat
deriving DecidableEq, Repr

/-- The values of R42. -/
def Tru.reset : Tru :=
  { table := Eight.const PhaseEntry.default, loop := { first := 0, last := 0 }, staged := none, spacing := 100, pointer := 0,
    group := none, skipped := 0, strobes := 0, pulseEnd := none }

/-! ## Lane Receivers (03) -/

/-- The lane record (R45): line timeout in µs. -/
structure LaneRecord where
  enable : Bool
  side : Side
  offset : Nat
  expected : Nat
  keepFirst : Nat
  keepLast : Nat
  column : Nat
  mirror : Bool
  fill : Byte
  timeoutUs : Nat
deriving DecidableEq, Repr

/-- The defaults of R45. -/
def LaneRecord.default : LaneRecord :=
  { enable := false, side := .top, offset := 0, expected := 8192, keepFirst := 0, keepLast := 8191, column := 0,
    mirror := false, fill := 0, timeoutUs := 500 }

/-- A trigger record (3.1): the deadline is a clock reading. -/
structure TrigRecord where
  tag : Nat
  tick : Int
  entry : Fin 8
  plane : Fin 4
  deadline : Nat
  rejoin : Bool
deriving DecidableEq, Repr

/-- The place the Slot Manager gives a line (R101). -/
structure Place where
  slot : Nat
  row : Nat
  alloc : Nat
deriving DecidableEq, Repr

/-- A placement in progress (R56, 6.1). Its pixels are the contents of the line buffer it occupies (R52); no place means that no
frame keeps the line. -/
structure Placement where
  plane : Fin 4
  tick : Int
  position : Int
  pixels : List Byte
  place : Option Place
deriving DecidableEq, Repr

/-- A Lane Receiver's state (3.1). The trigger queue is oldest first; the placements are in the order their lines were matched,
one per occupied line buffer. The last TRIGGER packet sent on the lane is the model's own record of the lane's output. -/
structure Lane where
  record : LaneRecord
  state : LaneState
  linkUp : Bool
  queue : List TrigRecord
  nextTag : Nat
  placements : List Placement
  lastTrigger : Option Packet
deriving DecidableEq, Repr

/-- The values of R62, with the link state: down at power-up, kept at a command reset. -/
def Lane.reset (linkUp : Bool) : Lane :=
  { record := LaneRecord.default, state := .disabled, linkUp := linkUp, queue := [], nextTag := 0, placements := [],
    lastTrigger := none }

/-! ## Frame Tracker (04) -/

/-- The framing record (R65). -/
structure FramingRecord where
  mode : FramingMode
  nominal : Nat
  tolerance : Nat
  offset : Nat
deriving DecidableEq, Repr

/-- The defaults of R65. -/
def FramingRecord.default : FramingRecord := { mode := .fixed, nominal := 1000, tolerance := 0, offset := 0 }

/-- An entry of the open list (4.1): the frame number, its slot, its start S, its end E or absent, and the truncated flag. -/
structure OpenFrame where
  number : Nat
  slot : Nat
  start : Int
  stop : Option Int
  truncated : Bool
deriving DecidableEq, Repr

/-- The Frame Tracker's state (4.1). -/
structure Frt where
  record : FramingRecord
  state : FramingState
  lastBoundary : Option Int
  counter : Nat
  openList : List OpenFrame
  capacity : Nat
  rewindHold : Bool
  stopTick : Option Int
  triggersEnded : Bool
deriving DecidableEq, Repr

/-- The values of R84; the row capacity has no meaning until a RUN_START sets it (assumption 8). -/
def Frt.reset : Frt :=
  { record := FramingRecord.default, state := .seeking, lastBoundary := none, counter := 0, openList := [], capacity := 0,
    rewindHold := false, stopTick := none, triggersEnded := false }

/-! ## Slot Manager and Stitch Unit (05, 06) -/

/-- The store record (R86). -/
structure StoreRecord where
  count : Nat
  policy : OverflowPolicy
deriving DecidableEq, Repr

/-- The defaults of R86. -/
def StoreRecord.default : StoreRecord := { count := 8, policy := .dropOldest }

/-- The layout record (R107): planes in use is a set of planes. -/
structure LayoutRecord where
  widthTop : Nat
  widthBottom : Nat
  tileWidth : Nat
  tileHeight : Nat
  planes : BitVec 4
deriving DecidableEq, Repr

/-- The defaults of R107. -/
def LayoutRecord.default : LayoutRecord :=
  { widthTop := 8192, widthBottom := 8192, tileWidth := 1024, tileHeight := 256, planes := 0b0001 }

/-- What a frame's geometry keeps of a lane enabled at allocation (5.2): its side, destination range and fill value. -/
structure GeoLane where
  lane : Fin 8
  side : Side
  first : Nat
  last : Nat
  fill : Byte
deriving DecidableEq, Repr

/-- The geometry of a frame (5.2): side widths, tile width and height, layers in use in ascending order, and its lanes. -/
structure Geometry where
  widthTop : Nat
  widthBottom : Nat
  tileWidth : Nat
  tileHeight : Nat
  layers : List Nat
  lanes : List GeoLane
deriving DecidableEq, Repr

/-- A resolved mark of the row mark table (5.2), which lists the newest first: a mark that is not listed is UNRESOLVED. -/
structure RowMark where
  lane : Fin 8
  plane : Fin 4
  row : Nat
  mark : Mark
deriving DecidableEq, Repr

/-- An entry of a fill-run list (R102). -/
structure FillRun where
  lane : Fin 8
  plane : Fin 4
  cause : FillCause
  first : Nat
  count : Nat
deriving DecidableEq, Repr

/-- The Stitch Unit's readiness table of a slot (6.1, R116): the ready-band counts of the tile columns of each side, and whether
the frame is closed. -/
structure Ready where
  closed : Bool
  top : List Nat
  bottom : List Nat
deriving DecidableEq, Repr

/-- A record of the slot table (5.2), with the slot's row mark table, fill-run list and readiness table. -/
structure Slot where
  state : SlotState
  alloc : Nat
  frame : Nat
  start : Int
  stop : Option Int
  rowCount : Option Nat
  kind : BoundaryKind
  closeReason : Option CloseReason
  loop : LoopBounds
  geometry : Geometry
  outstanding : List (Fin 8)
  degraded : List (Fin 8)
  retain : Bool
  releasePending : Bool
  pendingRereads : Nat
  fillRuns : List FillRun
  overflow : Bool
  marks : List RowMark
  ready : Ready
deriving DecidableEq, Repr

/-- The cleared record of a FREE slot. R105 and R96 clear a slot's record and give no value for its fields: the zeros and first codes here
are the model's choice (assumption 33). -/
def Slot.empty : Slot :=
  { state := .free, alloc := 0, frame := 0, start := 0, stop := none, rowCount := none, kind := .index, closeReason := none,
    loop := { first := 0, last := 0 },
    geometry := { widthTop := 0, widthBottom := 0, tileWidth := 0, tileHeight := 0, layers := [], lanes := [] },
    outstanding := [], degraded := [], retain := false, releasePending := false, pendingRereads := 0, fillRuns := [],
    overflow := false, marks := [], ready := { closed := false, top := [], bottom := [] } }

/-- The line store (05): its bytes as (address, byte) pairs, addresses strictly rising, none equal to what an unlisted address
reads as (assumption 9). -/
abbrev Memory := List Host.Cell

/-- The Slot Manager's state (05): slot i of the table is the element at index i. -/
structure Slm where
  record : StoreRecord
  slots : List Slot
  allocCounter : Nat
  store : Memory
deriving DecidableEq, Repr

/-- The values of R105: the contents of the line store are kept. -/
def Slm.reset (store : Memory) : Slm :=
  { record := StoreRecord.default, slots := List.replicate 8 Slot.empty, allocCounter := 0, store := store }

/-! ## Delivery Engine (07, 08) -/

/-- The route record (R122): the layer mask is a set of layers. -/
structure RouteRecord where
  enable : Bool
  port : Port
  layers : BitVec 8
  colFirst : Nat
  colLast : Nat
  stride : Nat
  phase : Nat
  early : Bool
  lead : Nat
deriving DecidableEq, Repr

/-- The defaults of R122. -/
def RouteRecord.default : RouteRecord :=
  { enable := false, port := .a, layers := 0b00000001, colFirst := 0, colLast := 127, stride := 1, phase := 0, early := false,
    lead := 0 }

/-- The plan a route fixes when its FRAME_OPEN is formed (R127, R128): the delivered layers in ascending order, the clamped
range and the lead used. -/
structure Plan where
  layers : List Nat
  colFirst : Nat
  colLast : Nat
  lead : Nat
deriving DecidableEq, Repr

/-- The cursor of a delivery record (7.1): the band, the place in the band's order of tiles (which names the position in column
order and the layer together, R129), and the next segment row, counted from the tile's first row. -/
structure Cursor where
  band : Nat
  index : Nat
  row : Nat
deriving DecidableEq, Repr

/-- What is fixed when a tile's first segment is formed: the row after the tile's last row (R131) and the rows per segment (R133). -/
structure TileSpan where
  stop : Nat
  rowsPerSegment : Nat
deriving DecidableEq, Repr

/-- A delivery record (7.1), with the revoke flag of 8.1. The FRAME_OPEN that its route has formed and offers stands in the record until
it has been transmitted (R130; assumption 39). -/
structure Delivery where
  slot : Nat
  alloc : Nat
  state : RecordState
  plan : Option Plan
  opening : Option Packet
  cursor : Cursor
  tileOpen : Bool
  span : Option TileSpan
  revoke : Bool
deriving DecidableEq, Repr

/-- A reread entry (8.1): its row span is rows first to stop − 1 of the frame; the rows per segment are fixed when its first
segment is formed (R147); it is open once its first segment has been transmitted. -/
structure Reread where
  slot : Nat
  alloc : Nat
  frame : Nat
  layer : Nat
  band : Nat
  col : Nat
  first : Nat
  stop : Nat
  next : Nat
  rowsPerSegment : Option Nat
  isOpen : Bool
deriving DecidableEq, Repr

/-- The Delivery Engine's state (7.1, 8.1): the delivery records of each route, the paused mask, and the reread queues, oldest
entry first. A route's current frame is a reading of its records (R126). -/
structure Dle where
  routes : Eight RouteRecord
  records : Eight (List Delivery)
  paused : BitVec 8
  rereads : Both (List Reread)
deriving DecidableEq, Repr

/-- The values of R138 and R151. -/
def Dle.reset : Dle :=
  { routes := Eight.const RouteRecord.default, records := Eight.const [], paused := 0, rereads := { a := [], b := [] } }

/-! ## Host ports (09) -/

/-- The port record (R161): rest delay in µs, wake lead in rows. -/
structure PortRecord where
  maxSegment : Nat
  restEnable : Bool
  restDelay : Nat
  wakeLead : Nat
deriving DecidableEq, Repr

/-- The defaults of R161. -/
def PortRecord.default : PortRecord := { maxSegment := 16384, restEnable := false, restDelay := 1000, wakeLead := 64 }

/-- What a packet in transmission is: a frame's packets name the route and the frame's allocation number; a tile segment names
the rows it carries and whether it is its tile's last. Allocation number 0, which no frame has (R88), marks a packet whose frame a
command reset has swept away. -/
inductive TxSource where
  | reply
  | notice
  | frameOpen (route : Fin 8) (alloc : Nat)
  | segment (route : Fin 8) (alloc rows : Nat) (last : Bool)
  | tileAbort (route : Fin 8) (alloc : Nat)
  | frameEnd (route : Fin 8) (alloc : Nat) (revoked : Bool)
  | reread (alloc rows : Nat) (last : Bool)
  | rest
deriving DecidableEq, Repr

/-- The packet in transmission on a port. -/
structure Tx where
  source : TxSource
  packet : Packet
deriving DecidableEq, Repr

/-- The tile in progress (9.1): a route's, whose next segment row stands in the route's cursor, or the head of the reread queue. -/
inductive TileRef where
  | route (r : Fin 8)
  | reread
deriving DecidableEq, Repr

/-- A host port's state (9.1). A reply place is none while it is reserved and not yet filled. The notice queue is used on port A
alone. The round-robin pointer names route 0 to 7 or, as 8, the reread queue. A wake is owed once a wake cause has come up while a REST
is in transmission (R163). -/
structure HostPort where
  record : PortRecord
  staged : Option PortRecord
  link : LinkState
  inbound : List InPacket
  replies : List (Option Packet)
  notices : List Packet
  tx : Option Tx
  tile : Option TileRef
  pointer : Fin 9
  idleTimer : Option Nat
  wakeTimer : Option Nat
  wakeOwed : Bool
deriving DecidableEq, Repr

/-- The values of R166. -/
def HostPort.reset : HostPort :=
  { record := PortRecord.default, staged := none, link := .down, inbound := [], replies := [], notices := [], tx := none,
    tile := none, pointer := 8, idleTimer := none, wakeTimer := none, wakeOwed := false }

/-! ## Run Controller and Notice Unit (10, 11) -/

/-- The Run Controller's state (10.1). Commands are taken, applied and answered in one step, so a command in hand is seen between
steps only while a staged SET_PORT holds its port (R168). Reset pending stands from the taking of a RESET on port A; reset due
stands from its reply's last byte to the command reset (R176). -/
structure Rnc where
  runState : RunState
  inHand : Both (Option InPacket)
  resetPending : Bool
  resetDue : Bool
  closeAtStopMade : Bool
deriving DecidableEq, Repr

/-- The values of R176. -/
def Rnc.reset : Rnc :=
  { runState := .config, inHand := { a := none, b := none }, resetPending := false, resetDue := false, closeAtStopMade := false }

/-- The nine counters of a lane (R61). -/
structure LaneCounters where
  linesWritten : Nat
  lost : Nat
  check : Nat
  stray : Nat
  overrun : Nat
  withheld : Nat
  shortLine : Nat
  longLine : Nat
  packetErrors : Nat
deriving DecidableEq, Repr

/-- The position group (R21, 11.4). -/
structure PositionCounters where
  ticks : Nat
  overspeedTicks : Nat
  encoderErrors : Nat
  rewinds : Nat
  indexEdges : Nat
  spuriousIndex : Nat
  synthesisedIndex : Nat
deriving DecidableEq, Repr

/-- The frames group (R83, R104, 11.4). -/
structure FrameCounters where
  opened : Nat
  droppedOpenLimit : Nat
  droppedNoSlot : Nat
  droppedEmpty : Nat
  evicted : Nat
  short : Nat
  truncated : Nat
  fillRunOverflows : Nat
deriving DecidableEq, Repr

/-- The counters of a port (R165). -/
structure PortCounters where
  packetsOut : Nat
  payloadBytesOut : Nat
  headerErrors : Nat
  payloadErrors : Nat
  commandOverruns : Nat
  abortedFrames : Nat
deriving DecidableEq, Repr

/-- The counters record (11.1): 99 counters. -/
structure Counters where
  lanes : Eight LaneCounters
  position : PositionCounters
  frames : FrameCounters
  ports : Both PortCounters
deriving DecidableEq, Repr

/-- Every counter at 0 (R186). -/
def Counters.zero : Counters :=
  { lanes := Eight.const
      { linesWritten := 0, lost := 0, check := 0, stray := 0, overrun := 0, withheld := 0, shortLine := 0, longLine := 0,
        packetErrors := 0 },
    position :=
      { ticks := 0, overspeedTicks := 0, encoderErrors := 0, rewinds := 0, indexEdges := 0, spuriousIndex := 0,
        synthesisedIndex := 0 },
    frames :=
      { opened := 0, droppedOpenLimit := 0, droppedNoSlot := 0, droppedEmpty := 0, evicted := 0, short := 0, truncated := 0,
        fillRunOverflows := 0 },
    ports :=
      { a := { packetsOut := 0, payloadBytesOut := 0, headerErrors := 0, payloadErrors := 0, commandOverruns := 0,
               abortedFrames := 0 },
        b := { packetsOut := 0, payloadBytesOut := 0, headerErrors := 0, payloadErrors := 0, commandOverruns := 0,
               abortedFrames := 0 } } }

/-- The Notice Unit's state (11.1): bit i of a mask is source i. -/
structure Ntu where
  pending : BitVec 16
  enable : BitVec 16
  counters : Counters
deriving DecidableEq, Repr

/-- The values of R186. -/
def Ntu.reset : Ntu := { pending := 0, enable := 0, counters := Counters.zero }

/-! ## The whole part -/

/-- The state of the part: the queue of waiting commands (the model's own), the clock in 10 ns units (the model's own,
assumption 2), the level of PWR_OK, and the blocks. -/
structure State where
  pending : List Instr
  now : Nat
  pwrOk : Bool
  ptk : Ptk
  tru : Tru
  lanes : Eight Lane
  frt : Frt
  slm : Slm
  layout : LayoutRecord
  dle : Dle
  ports : Both HostPort
  rnc : Rnc
  ntu : Ntu
deriving DecidableEq, Repr

/-- The power-up values of every block (R177), given what power-up does not change or takes from outside: the queue, the clock,
the contents of the line store (R105), the level of PWR_OK and the levels of the encoder lines (R22). -/
def State.powerUpValues (pending : List Instr) (now : Nat) (store : Memory) (pwrOk encA encB : Bool) : State :=
  { pending := pending, now := now, pwrOk := pwrOk, ptk := Ptk.reset encA encB now, tru := Tru.reset,
    lanes := Eight.const (Lane.reset false), frt := Frt.reset, slm := Slm.reset store, layout := LayoutRecord.default,
    dle := Dle.reset, ports := { a := HostPort.reset, b := HostPort.reset }, rnc := Rnc.reset, ntu := Ntu.reset }

/-- The part right after power-up: PWR_OK has risen with both encoder lines low (assumption 3), no command waits, the clock
reads 0 and the line store lists nothing. -/
def State.reset : State := State.powerUpValues [] 0 [] true false false

/-- Why the part stops with a fault. -/
inductive Fault where
  /-- Raised by PLACEMENT_COMPLETE when a line would be written past the 4,294,967,296 bytes of the line store, an address the
  manual says does not exist (R87). Safe: the model stops where no run of the part arrives (assumption 11). -/
  | lineStoreRange
deriving DecidableEq, Repr

/-- Why a command has no meaning. -/
inductive Refusal where
  /-- Raised by exec for a command that has no meaning yet, named as the table spells it. Safe: the model stops. -/
  | notModelled (mnemonic : String)
deriving DecidableEq, Repr

end Sys2Proof.Machine
end

