-- ==== Sys2Proof/Machine/Packets.lean ====
section
/-! DEFINITION. The codes of 12.2, the packets the part sends (12.1, 12.4) and the lines a packet puts on the wire. -/

namespace Sys2Proof.Machine

/-! ## One-byte codes (12.2) -/

def RunState.code : RunState → Nat
  | .config => 0 | .running => 1 | .draining => 2

def FramingState.code : FramingState → Nat
  | .seeking => 0 | .tracking => 1

def Motion.code : Motion → Nat
  | .stalled => 0 | .moving => 1

def Direction.code : Direction → Nat
  | .forward => 0 | .reverse => 1

def LaneState.code : LaneState → Nat
  | .disabled => 0 | .down => 1 | .ready => 2 | .active => 3 | .rejoin => 4

def LinkState.code : LinkState → Nat
  | .down => 0 | .up => 1 | .resting => 2 | .waking => 3

def portCode : Port → Nat
  | .a => 0 | .b => 1

def FramingMode.code : FramingMode → Nat
  | .indexed => 0 | .fixed => 1

def OverflowPolicy.code : OverflowPolicy → Nat
  | .dropNew => 0 | .dropOldest => 1

def BoundaryKind.code : BoundaryKind → Nat
  | .index => 0 | .synth => 1 | .fixed => 2

/-- The code of a close reason; NONE, for a frame not closed, is 0. -/
def closeReasonCode : Option CloseReason → Nat
  | none => 0 | some .normal => 1 | some .truncated => 2 | some .shortStall => 3 | some .shortRewind => 4 | some .shortStop => 5

def FillCause.code : FillCause → Nat
  | .lost => 1 | .check => 2 | .behind => 3 | .overspeed => 4 | .laneDown => 5 | .rejoin => 6

def DropReason.code : DropReason → Nat
  | .openLimit => 1 | .noSlot => 2 | .empty => 3

/-- The result codes of 10.3. -/
def Result.code : Result → Nat
  | .ok => 0 | .unknownKind => 1 | .badLength => 2 | .badValue => 3 | .conflict => 4 | .busy => 5 | .denied => 6
  | .notFound => 7 | .limit => 8 | .badCheck => 9

/-- The number of a notice source, 0 to 15 in the order of the table of 11.2. -/
def Source.number : Source → Nat
  | .laneDown => 0 | .laneUp => 1 | .overspeed => 2 | .withheld => 3 | .stall => 4 | .motion => 5 | .rewind => 6
  | .indexSynth => 7 | .indexSpurious => 8 | .frameDropped => 9 | .frameShort => 10 | .evicted => 11 | .portDown => 12
  | .linkErrors => 13 | .cmdOverrun => 14 | .runState => 15

/-- The number of a side (00, Terms). -/
def Side.number : Side → Nat
  | .top => 0 | .bottom => 1

/-- The number of a layer: side × 4 + plane (6.3). -/
def layerNumber (side : Side) (plane : Nat) : Nat := side.number * 4 + plane

/-- The side of a layer (6.3). -/
def layerSide (layer : Nat) : Side := if layer < 4 then .top else .bottom

/-- The plane of a layer (6.3). -/
def layerPlane (layer : Nat) : Nat := layer % 4

/-! ## Kinds (12.2) -/

def kindTrigger : Nat := 0x40
def kindLine : Nat := 0x48
def kindReply : Nat := 0x80
def kindNotice : Nat := 0x81
def kindFrameOpen : Nat := 0x82
def kindTile : Nat := 0x83
def kindTileAbort : Nat := 0x84
def kindFrameEnd : Nat := 0x85
def kindRest : Nat := 0x86

/-- The Stream byte of control traffic and of reread traffic (12.1). -/
def streamControl : Nat := 0x80
def streamReread : Nat := 0x40

/-- The Tag of a frame's TILE and TILE_ABORT packets: the low 16 bits of the frame number (R134, R145, R147). -/
def frameTag (frame : Nat) : Nat := frame % 65536

/-! ## Packets (12.1, R187) -/

/-- The Length field of a packet. -/
def Packet.length (k : Packet) : Nat := k.payload.length

/-- The six header bytes that the header check covers (12.1). -/
def Packet.head (k : Packet) : List Byte := le 1 k.kind ++ le 1 k.stream ++ le 2 k.tag ++ le 2 k.length

/-- The bytes a packet puts on the wire: header, header check, payload, and the payload check when Length is above 0 (12.1,
R187). -/
def Packet.wire (k : Packet) : List Byte :=
  k.head ++ le 2 (crc16 k.head) ++ k.payload ++ (if k.payload = [] then [] else le 4 (crc32 k.payload))

/-- TRIGGER: Stream is the entry index, Tag the record's tag, and the payload the exposure (R34, 12.4). -/
def triggerPacket (entry : Fin 8) (tag exposure : Nat) : Packet :=
  { kind := kindTrigger, stream := entry.val, tag := tag, payload := le 4 exposure }

/-- REPLY: the kind of the command as received, the result code, and the record asked for (R170, 12.4). -/
def replyPacket (command : InPacket) (result : Result) (record : List Byte) : Packet :=
  { kind := kindReply, stream := streamControl, tag := command.tag,
    payload := le 1 command.kind ++ le 1 result.code ++ record }

/-- NOTICE: the source, the high-water mark, and the frame, lane and detail fields, a field that is absent being sent as 0 with
its presence bit clear (R181, R187, 12.4). -/
def noticePacket (source : Source) (high : Int) (frame : Option Nat) (lane : Option (Fin 8)) (detail : Int) : Packet :=
  { kind := kindNotice, stream := streamControl, tag := 0,
    payload := le 1 source.number ++ le 1 (bits [frame.isSome, lane.isSome]) ++ le 1 ((lane.map Fin.val).getD 0) ++ le 1 0
      ++ leSigned 6 high ++ le 2 0 ++ le 4 (frame.getD 0) ++ leSigned 6 detail }

/-- FRAME_OPEN of a slot's frame under a plan (R130, 12.4). -/
def frameOpenPacket (route : Fin 8) (early : Bool) (slot : Slot) (plan : Plan) : Packet :=
  { kind := kindFrameOpen, stream := route.val, tag := (Config.frameOpenTag route slot.frame).val,
    payload := le 4 slot.frame ++ le 1 route.val ++ le 1 slot.kind.code ++ le 1 slot.loop.first.val ++ le 1 slot.loop.last.val
      ++ leSigned 6 slot.start ++ le 2 slot.geometry.widthTop ++ le 2 slot.geometry.widthBottom
      ++ le 2 slot.geometry.tileWidth ++ le 2 slot.geometry.tileHeight ++ le 1 (maskOf plan.layers) ++ le 1 (bits [early])
      ++ le 1 plan.colFirst ++ le 1 plan.colLast ++ le 1 plan.lead ++ le 1 0 ++ le 2 (slot.rowCount.getD 0) }

/-- One entry of the fill-run list in a FRAME_END (12.4). -/
def fillRunBytes (e : FillRun) : List Byte :=
  le 1 e.lane.val ++ le 1 e.plane.val ++ le 1 e.cause.code ++ le 1 0 ++ le 2 e.first ++ le 2 e.count

/-- FRAME_END of a slot's frame. A frame not closed carries close reason NONE, row count 0 and empty sets and lists (R132,
12.4). -/
def frameEndPacket (route : Fin 8) (revoked : Bool) (slot : Slot) : Packet :=
  let closed := slot.rowCount.isSome
  let runs := if closed then slot.fillRuns else []
  { kind := kindFrameEnd, stream := route.val, tag := (Config.frameEndTag route slot.frame).val,
    payload := le 4 slot.frame ++ le 1 route.val ++ le 1 revoked.toNat ++ le 1 (closeReasonCode slot.closeReason)
      ++ le 1 (if closed then maskOf (slot.degraded.map Fin.val) else 0) ++ le 2 (slot.rowCount.getD 0)
      ++ le 1 runs.length ++ le 1 (bits [closed && slot.overflow]) ++ runs.flatMap fillRunBytes }

/-- TILE_ABORT of an open tile (R145, 12.4): the reason REVOKED is 1. -/
def tileAbortPacket (route : Fin 8) (frame layer col band rowsSent : Nat) : Packet :=
  { kind := kindTileAbort, stream := route.val, tag := frameTag frame,
    payload := le 4 frame ++ le 1 layer ++ le 1 col ++ le 2 band ++ le 2 rowsSent ++ le 1 1 ++ le 1 0 }

/-- The segment header of a TILE packet (R134, 12.4). -/
def segmentHeader (frame layer col band firstRow rows width : Nat) (last fillPresent gapPresent reread : Bool) : List Byte :=
  le 4 frame ++ le 1 layer ++ le 1 col ++ le 2 band ++ le 2 firstRow ++ le 2 rows ++ le 2 width
    ++ le 1 (bits [last, fillPresent, gapPresent, reread]) ++ le 1 0

/-- REST: Stream 0x80, Tag 0, Length 0 (R163). -/
def restPacket : Packet := { kind := kindRest, stream := streamControl, tag := 0, payload := [] }

end Sys2Proof.Machine
end

