-- ==== Sys2Proof/Machine/Ops.lean ====
section
/-! DEFINITION. The named operations over the state: block updates, the line store, time, counters and notices. The part has no
exception entry; its error flags are the notice sources raised here. -/

namespace Sys2Proof.Machine

/-! ## Block updates -/

/-- Change one lane. -/
def State.setLane (s : State) (l : Fin 8) (f : Lane → Lane) : State := { s with lanes := s.lanes.set l (f (s.lanes.get l)) }

/-- Change one host port. -/
def State.setPort (s : State) (p : Port) (f : HostPort → HostPort) : State := { s with ports := s.ports.set p (f (s.ports.get p)) }

/-- The record of a slot; the cleared record beyond the table. -/
def State.slot (s : State) (i : Nat) : Slot := s.slm.slots.getD i Slot.empty

/-- Change one record of the slot table. -/
def State.setSlot (s : State) (i : Nat) (f : Slot → Slot) : State :=
  { s with slm := { s.slm with slots := s.slm.slots.modify i f } }

/-- Change the delivery records of one route. -/
def State.setRecords (s : State) (r : Fin 8) (f : List Delivery → List Delivery) : State :=
  { s with dle := { s.dle with records := s.dle.records.set r (f (s.dle.records.get r)) } }

/-- Change a route's delivery record for the frame of an allocation number. -/
def State.setRecord (s : State) (r : Fin 8) (alloc : Nat) (f : Delivery → Delivery) : State :=
  s.setRecords r fun ds => ds.map fun d => if d.alloc = alloc then f d else d

/-- A route's delivery record for the frame of an allocation number. -/
def State.recordOf (s : State) (r : Fin 8) (alloc : Nat) : Option Delivery :=
  (s.dle.records.get r).find? fun d => d.alloc = alloc

/-- Change the reread queue of one port. -/
def State.setRereads (s : State) (p : Port) (f : List Reread → List Reread) : State :=
  { s with dle := { s.dle with rereads := s.dle.rereads.set p (f (s.dle.rereads.get p)) } }

/-! ## The line store -/

/-- What an address of the line store that nothing has written reads as (assumption 9). -/
def unlistedByte : Byte := 0

/-- The byte at an address of the line store. -/
def Memory.read (m : Memory) (a : Nat) : Byte :=
  match m with
  | [] => unlistedByte
  | (b, v) :: rest => if b = a then v else Memory.read rest a

/-- The cells of a run of bytes from an address on, less those equal to what an unlisted address reads as. -/
def cellsFrom : Nat → List Byte → Memory
  | _, [] => []
  | a, v :: vs => if v = unlistedByte then cellsFrom (a + 1) vs else (a, v) :: cellsFrom (a + 1) vs

/-- Write a run of bytes from an address on, keeping the canonical form. -/
def Memory.write (m : Memory) (a : Nat) (vs : List Byte) : Memory :=
  m.filter (fun c => c.1 < a) ++ cellsFrom a vs ++ m.filter (fun c => a + vs.length ≤ c.1)

/-- The canonical form: addresses strictly rising, and no entry equal to what an unlisted address reads as. -/
abbrev Memory.wf (m : Memory) : Prop := m.Pairwise (fun c d => c.1 < d.1) ∧ ∀ c ∈ m, c.2 ≠ unlistedByte

/-! ## Power and time -/

/-- The outcome of a step: while PWR_OK is low the part is held in power-up reset and nothing changes (R177). -/
def State.whenPowered (s : State) (f : State → State) : Host.Outcome State Fault Refusal :=
  if s.pwrOk then .next (f s) else .next s

/-- Bring the clock forward to a reading, if it has not passed it: a timer's expiry happens no earlier than the timer's end
(assumption 2). -/
def State.advanceTo (s : State) (t : Nat) : State := { s with now := max s.now t }

/-- The time a timer has run. -/
def State.elapsed (s : State) (start : Nat) : Nat := s.now - start

/-! ## Counters (R184) -/

/-- A counter advanced by n, saturating. -/
def countUp (n c : Nat) : Nat := satAdd Config.counterMax n c

/-- Advance counters of a lane. -/
def State.countLane (s : State) (l : Fin 8) (f : LaneCounters → LaneCounters) : State :=
  { s with ntu := { s.ntu with counters :=
    { s.ntu.counters with lanes := s.ntu.counters.lanes.set l (f (s.ntu.counters.lanes.get l)) } } }

/-- Advance counters of the position group. -/
def State.countPosition (s : State) (f : PositionCounters → PositionCounters) : State :=
  { s with ntu := { s.ntu with counters := { s.ntu.counters with position := f s.ntu.counters.position } } }

/-- Advance counters of the frames group. -/
def State.countFrames (s : State) (f : FrameCounters → FrameCounters) : State :=
  { s with ntu := { s.ntu with counters := { s.ntu.counters with frames := f s.ntu.counters.frames } } }

/-- Advance counters of a port. -/
def State.countPort (s : State) (p : Port) (f : PortCounters → PortCounters) : State :=
  { s with ntu := { s.ntu with counters :=
    { s.ntu.counters with ports := s.ntu.counters.ports.set p (f (s.ntu.counters.ports.get p)) } } }

/-! ## Notices (R181, R182) -/

/-- The flag of a source in a mask of 16. -/
def Source.bit (x : Source) : BitVec 16 := BitVec.twoPow 16 x.number

/-- Whether a mask holds a source. -/
def maskHas (m : BitVec 16) (x : Source) : Bool := m.getLsbD x.number

/-- A NOTICE offered to port A joins the notice queue unless the port is DOWN or the queue is full (R182). -/
def State.offerNotice (s : State) (k : Packet) : State :=
  if s.ports.a.link = .down ∨ Config.noticeLimit ≤ s.ports.a.notices.length then s
  else s.setPort .a fun h => { h with notices := h.notices ++ [k] }

/-- Raise a notice source with its frame, lane and detail fields (R181). -/
def State.raise (s : State) (x : Source) (frame : Option Nat := none) (lane : Option (Fin 8) := none) (detail : Int := 0) :
    State :=
  if maskHas s.ntu.pending x then s
  else
    let s' := { s with ntu := { s.ntu with pending := s.ntu.pending ||| x.bit } }
    if maskHas s.ntu.enable x then s'.offerNotice (noticePacket x s.ptk.high frame lane detail) else s'

end Sys2Proof.Machine
end

