-- ==== Sys2Proof/Machine/Flags.lean ====
section
/-! DEFINITION. The readings of the state that rules test and reports carry: debt, direction and speed, groups and plane sets,
destination ranges and the partition of the line store, lane progress, and the counts of slots. None of them is stored. -/

namespace Sys2Proof.Machine

/-! ## Web position (R10, R16) -/

/-- The reverse debt H − T (R10). -/
def Ptk.debt (k : Ptk) : Int := k.high - k.tick

/-- The direction is a reading of the debt (R10). -/
def Ptk.direction (k : Ptk) : Direction := if 0 < k.debt then .reverse else .forward

/-- The speed reading in mm/s (R16). -/
def Ptk.speed (k : Ptk) : Nat :=
  if k.motion = .stalled ∨ 0 < k.debt then 0
  else match k.interval with
    | none => 0
    | some i => k.scale.pitch * 100 / i

/-! ## Groups and plane sets (R25, R31) -/

/-- The entries from an index up to and including the first with its end-of-group flag set, looking at most n entries on. -/
def groupFrom (table : Eight PhaseEntry) : Nat → Nat → List (Fin 8)
  | 0, _ => []
  | n + 1, i =>
    if h : i < 8 then
      if (table.get ⟨i, h⟩).endOfGroup then [⟨i, h⟩] else ⟨i, h⟩ :: groupFrom table n (i + 1)
    else []

/-- The group that starts at an entry (R31). -/
def groupAt (table : Eight PhaseEntry) (i : Fin 8) : List (Fin 8) := groupFrom table 8 i.val

/-- The entry after a group's last entry, wrapping from loop end to loop start (R31). -/
def afterGroup (loop : LoopBounds) (entries : List (Fin 8)) : Fin 8 :=
  match entries.getLast? with
  | none => loop.first
  | some e => if e = loop.last then loop.first else if h : e.val + 1 < 8 then ⟨e.val + 1, h⟩ else loop.first

/-- The entry pointer moved on by a number of whole groups, wrapping from loop end to loop start (R31). -/
def skipGroups (table : Eight PhaseEntry) (loop : LoopBounds) : Nat → Fin 8 → Fin 8
  | 0, p => p
  | n + 1, p => skipGroups table loop n (afterGroup loop (groupAt table p))

/-- The planes of a loop's plane set, which every group of the loop holds (R25), in the order of its first group. -/
def planesOf (table : Eight PhaseEntry) (loop : LoopBounds) : List (Fin 4) :=
  (groupAt table loop.first).map fun e => (table.get e).plane

/-- A set of planes as a mask of four bits. -/
def planeMask (planes : List (Fin 4)) : BitVec 4 := planes.foldl (fun m k => m ||| BitVec.twoPow 4 k.val) 0

/-- The planes of the plane set of the loop in force. -/
def Tru.planes (u : Tru) : List (Fin 4) := planesOf u.table u.loop

/-- The plane set of the loop in force, as a mask. -/
def Tru.planeSet (u : Tru) : BitVec 4 := planeMask u.planes

/-- The entries of a loop, from loop start to loop end. -/
def loopEntries (table : Eight PhaseEntry) (loop : LoopBounds) : List PhaseEntry :=
  (indices.filter fun i => loop.first ≤ i ∧ i ≤ loop.last).map table.get

/-- A loop cut into groups at each entry whose end-of-group flag is set (R25). -/
def cutGroups : List PhaseEntry → List (List PhaseEntry)
  | [] => []
  | e :: es =>
    if e.endOfGroup then [e] :: cutGroups es
    else match cutGroups es with
      | [] => [[e]]
      | g :: gs => (e :: g) :: gs

/-- The structure check of a loop: its last entry ends a group, no plane appears twice within a group, every group holds the
same planes, and the spacing exceeds every exposure in the loop (R25; both in 0.1 µs). -/
def loopOk (table : Eight PhaseEntry) (loop : LoopBounds) (spacing : Nat) : Bool :=
  let groups := (cutGroups (loopEntries table loop)).map fun g => g.map PhaseEntry.plane
  (table.get loop.last).endOfGroup
    && groups.all (fun g => g.Nodup)
    && groups.all (fun g => planeMask g = planeMask (groups.headD []))
    && (loopEntries table loop).all fun e => e.exposure < spacing

/-! ## Destination ranges and the partition of the line store (R45, R87) -/

/-- The last column of a lane's destination range, X + (K_l − K_f) (R45). -/
def LaneRecord.lastColumn (r : LaneRecord) : Nat := r.column + (r.keepLast - r.keepFirst)

/-- Whether two column ranges share a column. -/
def rangesMeet (a b c d : Nat) : Bool := a ≤ d ∧ c ≤ b

/-- The width of a side in a layout record. -/
def LayoutRecord.width (y : LayoutRecord) : Side → Nat
  | .top => y.widthTop
  | .bottom => y.widthBottom

/-- The width of a side in a frame's geometry. -/
def Geometry.width (g : Geometry) : Side → Nat
  | .top => g.widthTop
  | .bottom => g.widthBottom

/-- The lanes whose enable is set, in ascending order. -/
def State.enabledLanes (s : State) : List (Fin 8) := indices.filter fun l => (s.lanes.get l).record.enable

/-- The layers in use, in ascending order: a side with an enabled lane and a plane of the plane set in force (R87, R109). -/
def State.layersInUse (s : State) : List Nat :=
  (List.range 8).filter fun n =>
    (s.enabledLanes.any fun l => (s.lanes.get l).record.side = layerSide n) && (s.tru.planeSet).getLsbD (layerPlane n)

/-- The geometry a slot takes from the records in force at its allocation (5.2, R90). -/
def State.geometry (s : State) : Geometry :=
  { widthTop := s.layout.widthTop, widthBottom := s.layout.widthBottom, tileWidth := s.layout.tileWidth,
    tileHeight := s.layout.tileHeight, layers := s.layersInUse,
    lanes := s.enabledLanes.map fun l =>
      let r := (s.lanes.get l).record
      { lane := l, side := r.side, first := r.column, last := r.lastColumn, fill := r.fill } }

/-- Row bytes of a geometry: the sum of the side widths of its layers (R87). -/
def Geometry.rowBytes (g : Geometry) : Nat := (g.layers.map fun n => g.width (layerSide n)).sum

/-- Layer offset: the sum of the side widths of the layers in use below a layer (R111). -/
def Geometry.layerOffset (g : Geometry) (layer : Nat) : Nat :=
  ((g.layers.filter (· < layer)).map fun n => g.width (layerSide n)).sum

/-- Tile columns of a side (R114). -/
def Geometry.columns (g : Geometry) (side : Side) : Nat := ceilDiv (g.width side) g.tileWidth

/-- The first column, and the column after the last, of a tile column (R114). -/
def Geometry.columnStart (g : Geometry) (col : Nat) : Nat := col * g.tileWidth
def Geometry.columnStop (g : Geometry) (side : Side) (col : Nat) : Nat := min ((col + 1) * g.tileWidth) (g.width side)

/-- The bands of a closed frame with a row count (R114). -/
def Geometry.bands (g : Geometry) (rows : Nat) : Nat := ceilDiv rows g.tileHeight

/-- The lanes of a geometry on a side. -/
def Geometry.lanesOn (g : Geometry) (side : Side) : List GeoLane := g.lanes.filter fun x => x.side = side

/-- The contributing lanes of a tile column: those of the side whose destination range shares a column with it, or, where there
are none, every lane of the side (R115). -/
def Geometry.contributing (g : Geometry) (side : Side) (col : Nat) : List GeoLane :=
  let meet := (g.lanesOn side).filter fun x =>
    rangesMeet x.first x.last (g.columnStart col) (g.columnStop side col - 1)
  if meet = [] then g.lanesOn side else meet

/-- Slot bytes (R87). -/
def StoreRecord.slotBytes (r : StoreRecord) : Nat := Config.storeBytes / r.count

/-- Row capacity, 0 while no lane is enabled (R87). -/
def State.rowCapacity (s : State) : Nat :=
  let rowBytes := s.geometry.rowBytes
  if rowBytes = 0 then 0 else min (s.slm.record.slotBytes / rowBytes) Config.maxRows

/-! ## Lane progress (R59, R60, R76) -/

/-- The unfinished ticks of a lane: the group in progress until its last entry has been offered, the records without the rejoin
flag, and the placements in progress (R59). -/
def State.unfinished (s : State) (l : Fin 8) : List Int :=
  (match s.tru.group with
    | some g => if g.issued < g.entries.length then [g.tick] else []
    | none => [])
  ++ ((s.lanes.get l).queue.filter fun q => !q.rejoin).map TrigRecord.tick
  ++ (s.lanes.get l).placements.map Placement.tick

/-- Lane progress P under a high-water mark (R59). -/
def State.progress (s : State) (high : Int) (l : Fin 8) : Int :=
  (match least (s.unfinished l) with
    | some u => u - 1
    | none => high) - ((s.lanes.get l).record.offset : Int)

/-- Effective progress: P, and in DRAINING the smaller of P and stop tick − D (R76). -/
def State.effective (s : State) (high : Int) (l : Fin 8) : Int :=
  match s.rnc.runState, s.frt.stopTick with
  | .draining, some t => min (s.progress high l) (t - ((s.lanes.get l).record.offset : Int))
  | _, _ => s.progress high l

/-- Whether every enabled lane's effective progress has reached a position. -/
def State.allReached (s : State) (high p : Int) : Bool := s.enabledLanes.all fun l => p ≤ s.effective high l

/-- Whether some enabled lane's progress has changed from one state to another (R59, R60). -/
def State.progressMoved (s t : State) : Bool := t.enabledLanes.any fun l => t.progress t.ptk.high l ≠ s.progress s.ptk.high l

/-- A lane is settled when its queue is empty and it has no placement in progress (R60). -/
def Lane.settled (n : Lane) : Bool := n.queue.isEmpty && n.placements.isEmpty

/-- Whether every enabled lane is settled (R80, R82). -/
def State.allSettled (s : State) : Bool := s.enabledLanes.all fun l => (s.lanes.get l).settled

/-! ## Slots (R97, R104) -/

/-- How many slots are in a state. -/
def State.slotsIn (s : State) (x : SlotState) : Nat := s.slm.slots.countP fun y => y.state = x

/-- The retained count: slots with the retain flag set plus HELD slots (R97). -/
def State.retainedCount (s : State) : Nat := s.slm.slots.countP (fun y => y.retain) + s.slotsIn .held

/-- Whether every slot is FREE or HELD (R94, R175). -/
def State.allFreeOrHeld (s : State) : Bool := s.slm.slots.all fun y => y.state = .free ∨ y.state = .held

/-- The frames in store, as the records of the slots that hold them (R89). -/
def State.framesInStore (s : State) : List Slot := s.slm.slots.filter fun y => y.state ≠ .free

/-- The record with the least, or the greatest, allocation number. -/
def oldestOf : List Slot → Option Slot
  | [] => none
  | x :: xs => some (xs.foldl (fun m y => if y.alloc < m.alloc then y else m) x)
def newestOf : List Slot → Option Slot
  | [] => none
  | x :: xs => some (xs.foldl (fun m y => if m.alloc < y.alloc then y else m) x)

end Sys2Proof.Machine
end

