-- ==== Sys2Proof/Machine/Operands.lean ====
section
/-! DEFINITION. The operand forms: the header of a received packet and its checks (12.1, R51, R155, R187), the catalogue of
commands (10.2, 12.3), and the fields of each command's payload with the ranges its owner's rule gives (R188). A field out of
range is the answer none, which the Run Controller turns into BAD_VALUE. -/

namespace Sys2Proof.Machine

/-! ## Received packets -/

/-- The byte at an offset; 0 beyond the end. -/
def byteAt (bs : List Byte) (i : Nat) : Nat := (bs.getD i 0).toNat

/-- Two and four bytes at an offset, little-endian (12). -/
def u16 (bs : List Byte) (i : Nat) : Nat := byteAt bs i + 256 * byteAt bs (i + 1)
def u32 (bs : List Byte) (i : Nat) : Nat := u16 bs i + 65536 * u16 bs (i + 2)

/-- The header fields of a received packet. -/
structure Header where
  kind : Nat
  stream : Nat
  tag : Nat
  length : Nat
deriving DecidableEq, Repr

/-- The header of the bytes received from a start marker on, when its header check passes (R51, R155, R187). A packet cut short
within its header fails the check (assumption 6). -/
def readHeader (bs : List Byte) : Option Header :=
  if 8 ≤ bs.length ∧ crc16 (bs.take 6) = u16 bs 6 then
    some { kind := byteAt bs 0, stream := byteAt bs 1, tag := u16 bs 2, length := u16 bs 4 }
  else none

/-- The payload bytes of a received packet. -/
def payloadOf (h : Header) (bs : List Byte) : List Byte := (bs.drop 8).take h.length

/-- The judged payload check: absent when Length is 0, failed when the packet ends before its payload and its payload check have
all been received (R51, R155, R187). -/
def judgePayload (h : Header) (bs : List Byte) : CheckMark :=
  if h.length = 0 then .absent
  else if bs.length < 8 + h.length + 4 then .fail
  else if crc32 (payloadOf h bs) = u32 bs (8 + h.length) then .pass
  else .fail

/-! ## The command catalogue (10.2, 12.3) -/

def codeIdentify : Nat := 0x01
def codeGetStatus : Nat := 0x02
def codeGetStats : Nat := 0x03
def codeGetConfig : Nat := 0x04
def codeSetScale : Nat := 0x10
def codeSetPhases : Nat := 0x11
def codeSetLane : Nat := 0x12
def codeSetFraming : Nat := 0x13
def codeSetLayout : Nat := 0x14
def codeSetStore : Nat := 0x15
def codeSetRoute : Nat := 0x16
def codeSetPort : Nat := 0x17
def codeSetNotices : Nat := 0x18
def codeRunStart : Nat := 0x20
def codeRunStop : Nat := 0x21
def codeReset : Nat := 0x22
def codePause : Nat := 0x30
def codeResume : Nat := 0x31
def codeRevoke : Nat := 0x32
def codeRetain : Nat := 0x33
def codeRelease : Nat := 0x34
def codeReread : Nat := 0x35
def codeSetLead : Nat := 0x36
def codeClearNotices : Nat := 0x37
def codeSetLoop : Nat := 0x38

/-- The run states a command is accepted in (10.2). -/
inductive AcceptedIn where
  | any | config | running
deriving DecidableEq, Repr

/-- A row of the command catalogue: code, payload length, where accepted, and whether port B may send it. -/
structure CommandRow where
  code : Nat
  length : Nat
  acceptedIn : AcceptedIn
  fromB : Bool
deriving DecidableEq, Repr

/-- The command catalogue (10.2) with the payload lengths of 12.3. -/
def catalogue : List CommandRow :=
  [ ⟨codeIdentify, 0, .any, true⟩, ⟨codeGetStatus, 0, .any, true⟩, ⟨codeGetStats, 1, .any, true⟩, ⟨codeGetConfig, 2, .any, true⟩,
    ⟨codeSetScale, 16, .config, false⟩, ⟨codeSetPhases, 36, .config, false⟩, ⟨codeSetLane, 16, .config, false⟩,
    ⟨codeSetFraming, 8, .config, false⟩, ⟨codeSetLayout, 10, .config, false⟩, ⟨codeSetStore, 2, .config, false⟩,
    ⟨codeSetRoute, 8, .config, false⟩, ⟨codeSetPort, 10, .any, false⟩, ⟨codeSetNotices, 2, .any, false⟩,
    ⟨codeRunStart, 0, .config, false⟩, ⟨codeRunStop, 0, .running, false⟩, ⟨codeReset, 0, .any, false⟩,
    ⟨codePause, 1, .any, true⟩, ⟨codeResume, 1, .any, true⟩, ⟨codeRevoke, 5, .any, true⟩, ⟨codeRetain, 4, .any, true⟩,
    ⟨codeRelease, 4, .any, true⟩, ⟨codeReread, 8, .any, true⟩, ⟨codeSetLead, 2, .any, true⟩,
    ⟨codeClearNotices, 2, .any, true⟩, ⟨codeSetLoop, 2, .any, false⟩ ]

/-- The row of a command code. -/
def commandRow (code : Nat) : Option CommandRow := catalogue.find? fun r => r.code = code

/-! ## Fields -/

/-- A number from 0 to n − 1 as an index. -/
def asFin (n v : Nat) : Option (Fin n) := if h : v < n then some ⟨v, h⟩ else none

/-- A bit of a flag byte. -/
def flag (v i : Nat) : Bool := v.testBit i

/-- A port code (12.2). -/
def asPort : Nat → Option Port
  | 0 => some .a
  | 1 => some .b
  | _ => none

/-- A two-valued byte field (R188). -/
def asBool : Nat → Option Bool
  | 0 => some false
  | 1 => some true
  | _ => none

/-- A side number. -/
def sideOf (b : Bool) : Side := if b then .bottom else .top

/-- The scale record of a SET_SCALE payload (R1, 12.3). -/
def readScale (bs : List Byte) : Option ScaleRecord :=
  let r : ScaleRecord :=
    { step := u32 bs 0, pitch := u32 bs 4, swapped := flag (byteAt bs 8) 0, indexFalling := flag (byteAt bs 8) 1,
      stallMs := u16 bs 10, stallCloseS := u16 bs 12, reverseLimit := u16 bs 14 }
  if 100 ≤ r.step ∧ r.step ≤ 200000 ∧ 10000 ≤ r.pitch ∧ r.pitch ≤ 2000000 ∧ byteAt bs 8 ≤ 3 ∧ byteAt bs 9 = 0
      ∧ 1 ≤ r.stallMs ∧ r.stallMs ≤ 10000 ∧ r.stallCloseS ≤ 600 then some r else none

/-- The phase entry whose four bytes stand at an offset (R24, 12.3). -/
def readEntry (bs : List Byte) (i : Nat) : Option PhaseEntry :=
  let v := byteAt bs i
  let e : PhaseEntry :=
    { plane := ⟨v % 4, Nat.mod_lt _ (by decide)⟩, strobe := BitVec.ofNat 6 (byteAt bs (i + 1)), exposure := u16 bs (i + 2),
      endOfGroup := flag v 7 }
  if v % 128 < 4 ∧ byteAt bs (i + 1) < 64 ∧ 1 ≤ e.exposure ∧ e.exposure ≤ 2000 then some e else none

/-- Loop bounds in range: each 0 to 7, the end not below the start (R24, R27). -/
def readLoop (first last : Nat) : Option LoopBounds := do
  let a ← asFin 8 first
  let b ← asFin 8 last
  if a ≤ b then some { first := a, last := b } else none

/-- What a SET_PHASES payload carries (R24, 12.3): table, loop bounds and spacing, each field in range. -/
def readPhases (bs : List Byte) : Option (Eight PhaseEntry × LoopBounds × Nat) := do
  let e0 ← readEntry bs 0
  let e1 ← readEntry bs 4
  let e2 ← readEntry bs 8
  let e3 ← readEntry bs 12
  let e4 ← readEntry bs 16
  let e5 ← readEntry bs 20
  let e6 ← readEntry bs 24
  let e7 ← readEntry bs 28
  let loop ← readLoop (byteAt bs 32) (byteAt bs 33)
  let spacing := u16 bs 34
  if 20 ≤ spacing ∧ spacing ≤ 10000 then some (⟨e0, e1, e2, e3, e4, e5, e6, e7⟩, loop, spacing) else none

/-- The lane number and record of a SET_LANE payload (R45, 12.3). -/
def readLane (bs : List Byte) : Option (Fin 8 × LaneRecord) := do
  let l ← asFin 8 (byteAt bs 0)
  let v := byteAt bs 1
  let r : LaneRecord :=
    { enable := flag v 0, side := sideOf (flag v 1), offset := u16 bs 2, expected := u16 bs 4, keepFirst := u16 bs 6,
      keepLast := u16 bs 8, column := u16 bs 10, mirror := flag v 2, fill := bs.getD 12 0, timeoutUs := u16 bs 14 }
  if v ≤ 7 ∧ r.offset ≤ 4095 ∧ 256 ≤ r.expected ∧ r.expected ≤ 16384 ∧ r.keepFirst + 2 ≤ r.expected
      ∧ r.keepFirst ≤ r.keepLast ∧ r.keepLast < r.expected ∧ r.column ≤ 32767 ∧ byteAt bs 13 = 0
      ∧ 10 ≤ r.timeoutUs ∧ r.timeoutUs ≤ 50000 then some (l, r) else none

/-- The framing record of a SET_FRAMING payload (R65, 12.3). -/
def readFraming (bs : List Byte) : Option FramingRecord := do
  let mode ← match byteAt bs 0 with
    | 0 => some FramingMode.indexed
    | 1 => some FramingMode.fixed
    | _ => none
  let r : FramingRecord := { mode := mode, nominal := u16 bs 2, tolerance := u16 bs 4, offset := u16 bs 6 }
  if byteAt bs 1 = 0 ∧ 16 ≤ r.nominal ∧ r.tolerance ≤ 4095 then some r else none

/-- The layout record of a SET_LAYOUT payload (R107, 12.3). -/
def readLayout (bs : List Byte) : Option LayoutRecord :=
  let r : LayoutRecord :=
    { widthTop := u16 bs 0, widthBottom := u16 bs 2, tileWidth := u16 bs 4, tileHeight := u16 bs 6,
      planes := BitVec.ofNat 4 (byteAt bs 8) }
  if 64 ≤ r.widthTop ∧ r.widthTop ≤ 32768 ∧ 64 ≤ r.widthBottom ∧ r.widthBottom ≤ 32768 ∧ 256 ≤ r.tileWidth
      ∧ r.tileWidth ≤ 16384 ∧ r.tileWidth % 64 = 0 ∧ 8 ≤ r.tileHeight ∧ r.tileHeight ≤ 4096
      ∧ 1 ≤ byteAt bs 8 ∧ byteAt bs 8 ≤ 15 ∧ byteAt bs 9 = 0 then some r else none

/-- The store record of a SET_STORE payload (R86, 12.3). -/
def readStore (bs : List Byte) : Option StoreRecord := do
  let policy ← match byteAt bs 1 with
    | 0 => some OverflowPolicy.dropNew
    | 1 => some OverflowPolicy.dropOldest
    | _ => none
  if 2 ≤ byteAt bs 0 ∧ byteAt bs 0 ≤ 32 then some { count := byteAt bs 0, policy := policy } else none

/-- The route number and record of a SET_ROUTE payload (R122, 12.3). -/
def readRoute (bs : List Byte) : Option (Fin 8 × RouteRecord) := do
  let n ← asFin 8 (byteAt bs 0)
  let v := byteAt bs 1
  let r : RouteRecord :=
    { enable := flag v 0, port := if flag v 1 then .b else .a, early := flag v 2, layers := BitVec.ofNat 8 (byteAt bs 2),
      colFirst := byteAt bs 3, colLast := byteAt bs 4, stride := byteAt bs 5, phase := byteAt bs 6, lead := byteAt bs 7 }
  if v ≤ 7 ∧ r.colFirst ≤ r.colLast ∧ r.colLast ≤ 127 ∧ 1 ≤ r.stride ∧ r.stride ≤ 16 ∧ r.phase < r.stride ∧ r.lead ≤ 127 then
    some (n, r) else none

/-- The port and record of a SET_PORT payload (R161, 12.3). -/
def readPort (bs : List Byte) : Option (Port × PortRecord) := do
  let p ← asPort (byteAt bs 0)
  let rest ← asBool (byteAt bs 1)
  let r : PortRecord := { maxSegment := u16 bs 2, restEnable := rest, restDelay := u32 bs 4, wakeLead := u16 bs 8 }
  if 1024 ≤ r.maxSegment ∧ 10 ≤ r.restDelay ∧ r.restDelay ≤ 1000000 ∧ r.wakeLead ≤ 4095 then some (p, r) else none

/-- What GET_CONFIG selects (R180, 12.2). -/
inductive Selector where
  | scale | phase | lane (l : Fin 8) | framing | layout | store | route (r : Fin 8) | port (p : Port) | notice
deriving DecidableEq, Repr

/-- The selector and number of a GET_CONFIG payload; the number is ignored where no selector uses it (R180). -/
def readSelector (bs : List Byte) : Option Selector :=
  let n := byteAt bs 1
  match byteAt bs 0 with
  | 0 => some .scale
  | 1 => some .phase
  | 2 => (asFin 8 n).map .lane
  | 3 => some .framing
  | 4 => some .layout
  | 5 => some .store
  | 6 => (asFin 8 n).map .route
  | 7 => (asPort n).map .port
  | 8 => some .notice
  | _ => none

/-- The route and lead column of a SET_LEAD payload (R136, 12.3). -/
def readLead (bs : List Byte) : Option (Fin 8 × Nat) := do
  let r ← asFin 8 (byteAt bs 0)
  if byteAt bs 1 ≤ 127 then some (r, byteAt bs 1) else none

end Sys2Proof.Machine
end

