-- ==== Sys2Proof/Machine/Slots.lean ====
section
/-! DEFINITION. The Slot Manager: lookup, row marks and fill runs, bounding, closing and freeing, allocation and eviction (05), with
the delivery records the Delivery Engine makes and discards with them (R92, R124, R137). -/

namespace Sys2Proof.Machine

/-! ## Lookup (R89) -/

/-- The slots with their numbers. -/
def State.numbered (s : State) : List (Nat × Slot) := s.slm.slots.zipIdx.map fun x => (x.2, x.1)

/-- The slot of the highest allocation number that holds a frame number, among the slots in the states a test accepts. -/
def State.newestHolding (s : State) (frame : Nat) (accept : SlotState → Bool) : Option Nat :=
  let found := s.numbered.filter fun x => accept x.2.state && x.2.frame = frame
  match found with
  | [] => none
  | x :: xs => some (xs.foldl (fun m y => if m.2.alloc < y.2.alloc then y else m) x).1

/-- Whether a slot is OPEN or CLOSED, and whether it is HELD. -/
def inCapture (x : SlotState) : Bool := x = .opened ∨ x = .closed
def isHeld (x : SlotState) : Bool := x = .held

/-- The lookup of RETAIN and REVOKE: OPEN and CLOSED slots first, HELD slots if none matches (R89). -/
def State.lookupCapture (s : State) (frame : Nat) : Option Nat :=
  match s.newestHolding frame inCapture with
  | some i => some i
  | none => s.newestHolding frame isHeld

/-- The lookup of RELEASE and REREAD: HELD slots first, OPEN and CLOSED slots if none matches (R89). -/
def State.lookupHeld (s : State) (frame : Nat) : Option Nat :=
  match s.newestHolding frame isHeld with
  | some i => some i
  | none => s.newestHolding frame inCapture

/-! ## Row marks and fill runs (R100, R102) -/

/-- The mark of a lane, plane and row: UNRESOLVED where the table lists none (5.2). -/
def Slot.markOf (x : Slot) (l : Fin 8) (k : Fin 4) (row : Nat) : Mark :=
  match x.marks.find? fun m => m.lane = l ∧ m.plane = k ∧ m.row = row with
  | some m => m.mark
  | none => .unresolved

/-- Whether a slot keeps a position: OPEN, S ≤ p, and E absent or greater than p (R100). -/
def Slot.keeps (x : Slot) (p : Int) : Bool :=
  x.state = .opened && decide (x.start ≤ p) && (match x.stop with | none => true | some e => decide (p < e))

/-- The slot that keeps a position (R100). -/
def State.keeper (s : State) (p : Int) : Option Nat := s.slm.slots.findIdx? fun x => x.keeps p

/-- Extend by one the first entry of a lane, plane and cause whose run ends at the row before; none if there is no such entry
(R102). -/
def extendRun (l : Fin 8) (k : Fin 4) (c : FillCause) (row : Nat) : List FillRun → Option (List FillRun)
  | [] => none
  | e :: es =>
    if e.lane = l ∧ e.plane = k ∧ e.cause = c ∧ e.first + e.count = row then some ({ e with count := e.count + 1 } :: es)
    else (extendRun l k c row es).map (e :: ·)

/-- Add a FILLED mark to a slot's fill-run list (R102). -/
def Slot.addRun (x : Slot) (l : Fin 8) (k : Fin 4) (c : FillCause) (row : Nat) : Slot :=
  match extendRun l k c row x.fillRuns with
  | some es => { x with fillRuns := es }
  | none =>
    if x.fillRuns.length < Config.fillRunLimit then
      { x with fillRuns := x.fillRuns ++ [{ lane := l, plane := k, cause := c, first := row, count := 1 }] }
    else { x with overflow := true }

/-- What a resolution says of a row (R58, R100). -/
inductive Resolution where
  | written
  | filled (c : FillCause)
deriving DecidableEq, Repr

/-- Record a resolution in a slot whose mark for the lane, plane and row is UNRESOLVED (R100). -/
def Slot.resolved (x : Slot) (l : Fin 8) (k : Fin 4) (row : Nat) : Resolution → Slot
  | .written => { x with marks := { lane := l, plane := k, row := row, mark := .written } :: x.marks }
  | .filled c => { x.addRun l k c row with marks := { lane := l, plane := k, row := row, mark := .filled } :: x.marks }

/-- A resolution reaches the Slot Manager on a lane's fill path: it marks the row in the frame that keeps the position, once, and
is discarded otherwise (R100, R102). -/
def State.resolve (s : State) (l : Fin 8) (k : Fin 4) (p : Int) (res : Resolution) : State :=
  match s.keeper p with
  | none => s
  | some i =>
    let x := s.slot i
    let row := (p - x.start).toNat
    if x.markOf l k row = .unresolved then
      let y := x.resolved l k row res
      let s' := s.setSlot i fun _ => y
      if y.overflow ∧ ¬ x.overflow then s'.countFrames fun c => { c with fillRunOverflows := countUp 1 c.fillRunOverflows }
      else s'
    else s

/-- Where a matched line goes: the keeping slot, the row and the allocation number, if the row's mark is UNRESOLVED (R101). -/
def State.placeFor (s : State) (l : Fin 8) (k : Fin 4) (p : Int) : Option Place :=
  match s.keeper p with
  | none => none
  | some i =>
    let x := s.slot i
    let row := (p - x.start).toNat
    if x.markOf l k row = .unresolved then some { slot := i, row := row, alloc := x.alloc } else none

/-! ## Freeing (R94, R96, R99) -/

/-- Discard the delivery records of the frame of an allocation number (R125, R137). -/
def State.dropRecords (s : State) (alloc : Nat) : State :=
  { s with dle := { s.dle with records := s.dle.records.map fun ds => ds.filter fun d => d.alloc ≠ alloc } }

/-- A slot becomes FREE: its record is cleared and the delivery records of its frame are discarded (R94, R96). -/
def State.freeSlot (s : State) (i : Nat) : State := (s.dropRecords (s.slot i).alloc).setSlot i fun _ => Slot.empty

/-- The freeing test of a CLOSED slot (R94). -/
def State.freeingTest (s : State) (i : Nat) : State :=
  let x := s.slot i
  if x.state = .closed ∧ x.outstanding = [] ∧ x.pendingRereads = 0 then
    if x.retain then s.setSlot i fun y => { y with state := .held, retain := false } else s.freeSlot i
  else s

/-- A route's delivery record for a slot's frame has become final: the route leaves the outstanding routes and the freeing test
follows (R94, R137). -/
def State.reportFinal (s : State) (r : Fin 8) (i : Nat) : State :=
  (s.setSlot i fun x => { x with outstanding := x.outstanding.filter (· ≠ r) }).freeingTest i

/-- A reread tile of a slot's frame has been sent or dropped (R99). -/
def State.rereadEnded (s : State) (i : Nat) : State :=
  let s' := s.setSlot i fun x => { x with pendingRereads := x.pendingRereads - 1 }
  let x := s'.slot i
  if x.pendingRereads = 0 then
    if x.state = .held ∧ x.releasePending then s'.freeSlot i else s'.freeingTest i
  else s'

/-! ## Bounding and closing (R93, R95) -/

/-- A bound request (R93). -/
def State.boundSlot (s : State) (i : Nat) (stop : Int) : State := s.setSlot i fun x => { x with stop := some stop }

/-- A fill-run list clipped to a row count (R95). -/
def clipRuns (rows : Nat) (es : List FillRun) : List FillRun :=
  (es.filter fun e => e.first < rows).map fun e => { e with count := min e.count (rows - e.first) }

/-- The lanes with a FILLED mark at some row below a row count (R95). -/
def Slot.degradedBelow (x : Slot) (rows : Nat) : List (Fin 8) :=
  indices.filter fun l => x.marks.any fun m => m.lane = l ∧ m.mark = .filled ∧ m.row < rows

/-- A close request: the record is settled, every tile becomes ready, and the freeing test follows (R95, R116). Every ready-band count
becomes the band count, also where a short close leaves fewer bands than were ready early (assumption 34). -/
def State.closeSlot (s : State) (i : Nat) (rows : Nat) (reason : CloseReason) : State :=
  (s.setSlot i fun x =>
    let bands := x.geometry.bands rows
    { x with
      state := .closed, rowCount := some rows, closeReason := some reason, fillRuns := clipRuns rows x.fillRuns,
      degraded := x.degradedBelow rows,
      ready := { closed := true, top := x.ready.top.map fun _ => bands, bottom := x.ready.bottom.map fun _ => bands } }
    ).freeingTest i

/-! ## Allocation and eviction (R90 to R92, R124) -/

/-- Whether a route selects a frame number (R124). -/
def RouteRecord.selects (r : RouteRecord) (frame : Nat) : Bool := r.enable && frame % r.stride = r.phase

/-- The routes that select a frame number. -/
def State.selecting (s : State) (frame : Nat) : List (Fin 8) := indices.filter fun r => (s.dle.routes.get r).selects frame

/-- A new delivery record: PENDING, its cursor at the first tile, no tile open (R124). -/
def Delivery.fresh (slot alloc : Nat) : Delivery :=
  { slot := slot, alloc := alloc, state := .pending, plan := none, opening := none, cursor := { band := 0, index := 0, row := 0 },
    tileOpen := false, span := none, revoke := false }

/-- The readiness table of a new frame: for each side that holds a layer, a count of 0 for each tile column (R116). -/
def Geometry.freshReady (g : Geometry) : Ready :=
  let zeros := fun side => if g.layers.any (fun n => layerSide n = side) then List.replicate (g.columns side) 0 else []
  { closed := false, top := zeros .top, bottom := zeros .bottom }

/-- Give a slot to a frame (R90, R124). -/
def State.setUpSlot (s : State) (i : Nat) (frame : Nat) (start : Int) (kind : BoundaryKind) : State :=
  let alloc := s.slm.allocCounter + 1
  let routes := s.selecting frame
  let g := s.geometry
  let s1 := { s with slm := { s.slm with allocCounter := alloc } }
  let s2 := s1.setSlot i fun _ =>
    { Slot.empty with
      state := .opened, alloc := alloc, frame := frame, start := start, kind := kind, loop := s.tru.loop, geometry := g,
      outstanding := routes, ready := g.freshReady }
  routes.foldl (fun s r => s.setRecords r fun ds => ds ++ [Delivery.fresh i alloc]) s2

/-- Whether a FRAME_OPEN of the frame of an allocation number is in transmission on either port (R92). -/
def State.frameOpenSending (s : State) (alloc : Nat) : Bool :=
  let sending := fun (h : HostPort) => match h.tx with
    | some { source := .frameOpen _ a, .. } => a = alloc
    | _ => false
  sending s.ports.a || sending s.ports.b

/-- Whether some route's delivery record for the frame of an allocation number is OPENED. -/
def State.openedSomewhere (s : State) (alloc : Nat) : Bool :=
  indices.any fun r => (s.dle.records.get r).any fun d => d.alloc = alloc ∧ d.state = .opened

/-- Whether a slot can be evicted (R92). -/
def State.evictable (s : State) (x : Slot) : Bool :=
  x.state = .closed && !(s.openedSomewhere x.alloc) && !(s.frameOpenSending x.alloc) && !x.retain && x.pendingRereads = 0

/-- The evictable slot of the lowest allocation number (R92). -/
def State.victim (s : State) : Option Nat :=
  match s.numbered.filter fun x => s.evictable x.2 with
  | [] => none
  | x :: xs => some (xs.foldl (fun m y => if y.2.alloc < m.2.alloc then y else m) x).1

/-- An eviction: the PENDING records of the frame become SKIPPED and, since the slot is given to another frame, are discarded with
the others; the eviction is counted and raised (R92, R125). -/
def State.evict (s : State) (i : Nat) : State :=
  let x := s.slot i
  ((s.dropRecords x.alloc).countFrames fun c => { c with evicted := countUp 1 c.evicted }).raise .evicted (frame := some x.frame)

/-- An allocation request: the slot given, or none for a refusal, and the state after it (R90 to R92). -/
def State.allocate (s : State) (frame : Nat) (start : Int) (kind : BoundaryKind) : Option Nat × State :=
  match s.slm.slots.findIdx? fun x => x.state = .free with
  | some i => (some i, s.setUpSlot i frame start kind)
  | none =>
    match s.slm.record.policy with
    | .dropNew => (none, s)
    | .dropOldest =>
      match s.victim with
      | none => (none, s)
      | some i => (some i, (s.evict i).setUpSlot i frame start kind)

end Sys2Proof.Machine
end

