-- ==== Sys2Proof/Machine/Stitching.lean ====
section
/-! DEFINITION. The Stitch Unit: bringing a line to its expected length, laying kept pixels across a row, early readiness (06), and
the read of a row with hold substitution and gap columns (R103, R113). -/

namespace Sys2Proof.Machine

/-! ## Placement (R55, R110, R111) -/

/-- A line brought to the expected length N: missing pixels take the fill value, pixels from N on are dropped (R55). -/
def LaneRecord.fit (r : LaneRecord) (line : List Byte) : List Byte :=
  line.take r.expected ++ List.replicate (r.expected - line.length) r.fill

/-- The kept pixels of a line in ascending order of column: camera pixels K_f to K_l, reversed with mirror set (R110). -/
def LaneRecord.kept (r : LaneRecord) (line : List Byte) : List Byte :=
  let window := (line.drop r.keepFirst).take (r.keepLast - r.keepFirst + 1)
  if r.mirror then window.reverse else window

/-- The store address of a slot's row in a layer (R87, R111). -/
def State.rowAddress (s : State) (slot : Nat) (g : Geometry) (row layer : Nat) : Nat :=
  slot * s.slm.record.slotBytes + row * g.rowBytes + g.layerOffset layer

/-- The store address of the first kept pixel of a placement that has a place (R110, R111). -/
def State.lineAddress (s : State) (l : Fin 8) (k : Fin 4) (pl : Place) : Nat :=
  let r := (s.lanes.get l).record
  s.rowAddress pl.slot (s.slot pl.slot).geometry pl.row (layerNumber r.side k.val) + r.column

/-- Whether a slot still holds the allocation number a place was given under (R101, R111). -/
def State.stillHolds (s : State) (pl : Place) : Bool := (s.slot pl.slot).state ≠ .free && (s.slot pl.slot).alloc = pl.alloc

/-- Write the kept pixels of a line into the row it was given (R110, R111). -/
def State.writeLine (s : State) (l : Fin 8) (k : Fin 4) (pl : Place) (line : List Byte) : State :=
  { s with slm := { s.slm with store := s.slm.store.write (s.lineAddress l k pl) ((s.lanes.get l).record.kept line) } }

/-! ## Early readiness (R117) -/

/-- The bands of an open frame's tile column that the contributing lanes have finished and that lie wholly below the frame's last
row: band b counts when the slowest contributing lane has reached S + (b + 1) × Ht − 1 and, if the frame is bounded,
(b + 1) × Ht < E − S (R117, R118). A frame not yet bounded has no last row to hold a band back, and a count stands when the frame is bounded
later (assumption 35). -/
def State.bandsFinished (s : State) (x : Slot) (side : Side) (col : Nat) : Nat :=
  let g := x.geometry
  match least ((g.contributing side col).map fun y => s.effective s.ptk.high y.lane) with
  | none => 0
  | some p =>
    let finished := (p - x.start + 1).toNat / g.tileHeight
    match x.stop with
    | none => finished
    | some e => min finished (((e - x.start - 1).toNat) / g.tileHeight)

/-- The ready-band counts of a side raised as far as R117 allows. -/
def State.raisedCounts (s : State) (x : Slot) (side : Side) (counts : List Nat) : List Nat :=
  counts.zipIdx.map fun c => max c.1 (s.bandsFinished x side c.2)

/-- The readiness test of an open table (R117). -/
def State.readySlot (s : State) (x : Slot) : Slot :=
  if x.state = .opened then
    { x with ready := { x.ready with top := s.raisedCounts x .top x.ready.top, bottom := s.raisedCounts x .bottom x.ready.bottom } }
  else x

/-- The readiness test of every open table (R117, R120). -/
def State.readinessTest (s : State) : State := { s with slm := { s.slm with slots := s.slm.slots.map s.readySlot } }

/-- The ready-band count of a tile column of a side (R116). -/
def Ready.count (y : Ready) (side : Side) (col : Nat) : Nat :=
  match side with
  | .top => y.top.getD col 0
  | .bottom => y.bottom.getD col 0

/-! ## Reading a row (R103, R113) -/

/-- The highest row below r whose mark for the lane and plane is WRITTEN (R103). -/
def Slot.heldRow (x : Slot) (l : Fin 8) (k : Fin 4) : Nat → Option Nat
  | 0 => none
  | r + 1 => if x.markOf l k r = .written then some r else x.heldRow l k r

/-- Where a lane's columns of a row come from. -/
inductive RowSource where
  | stored (row : Nat)
  | fillValue
  | unresolved
deriving DecidableEq, Repr

/-- The source of a lane's columns of a row: the row itself when WRITTEN, the nearest earlier written row or the fill value when
FILLED (R103). -/
def Slot.rowSource (x : Slot) (l : Fin 8) (k : Fin 4) (row : Nat) : RowSource :=
  match x.markOf l k row with
  | .written => .stored row
  | .filled => match x.heldRow l k row with
    | some r => .stored r
    | none => .fillValue
  | .unresolved => .unresolved

/-- The plane of a layer as one of four. -/
def planeOfLayer (layer : Nat) : Fin 4 := ⟨layer % 4, Nat.mod_lt _ (by decide)⟩

/-- One column of a row of a layer as every read delivers it: 0 for a gap column, and otherwise what hold substitution gives for
the lane that covers it (R103, R113). -/
def State.readColumn (s : State) (slot : Nat) (x : Slot) (layer row col : Nat) : Byte :=
  match (x.geometry.lanesOn (layerSide layer)).find? fun y => y.first ≤ col ∧ col ≤ y.last with
  | none => 0
  | some y =>
    match x.rowSource y.lane (planeOfLayer layer) row with
    | .stored r => s.slm.store.read (s.rowAddress slot x.geometry r layer + col)
    | .fillValue => y.fill
    | .unresolved => Config.unresolvedByte (s.rowAddress slot x.geometry row layer + col)

/-- Columns first to stop − 1 of a row of a layer. -/
def State.readRow (s : State) (slot : Nat) (x : Slot) (layer row first stop : Nat) : List Byte :=
  (List.range (stop - first)).map fun i => s.readColumn slot x layer row (first + i)

/-- Gap-present: the tile column holds a column that no lane of its side covers (R113). -/
def Geometry.gapPresent (g : Geometry) (side : Side) (col : Nat) : Bool :=
  let first := g.columnStart col
  (List.range (g.columnStop side col - first)).any fun i =>
    !((g.lanesOn side).any fun y => y.first ≤ first + i ∧ first + i ≤ y.last)

/-- Fill-present: at some of the rows a lane whose destination range meets the tile's columns has a FILLED mark for the layer's
plane (R134). -/
def Slot.fillPresent (x : Slot) (layer col firstRow rows : Nat) : Bool :=
  let g := x.geometry
  let side := layerSide layer
  let meet := (g.lanesOn side).filter fun y => rangesMeet y.first y.last (g.columnStart col) (g.columnStop side col - 1)
  (List.range rows).any fun i => meet.any fun y => x.markOf y.lane (planeOfLayer layer) (firstRow + i) = .filled

/-- The width of a tile (R133). -/
def Geometry.tileColumnWidth (g : Geometry) (side : Side) (col : Nat) : Nat := g.columnStop side col - g.columnStart col

/-- The payload of a TILE packet: the segment header and whole rows, ascending (R133, R134, R147). -/
def State.segmentPayload (s : State) (slot : Nat) (layer col band firstRow rows : Nat) (last reread : Bool) : List Byte :=
  let x := s.slot slot
  let g := x.geometry
  let side := layerSide layer
  segmentHeader x.frame layer col band firstRow rows (g.tileColumnWidth side col) last (x.fillPresent layer col firstRow rows)
      (g.gapPresent side col) reread
    ++ (List.range rows).flatMap fun i => s.readRow slot x layer (firstRow + i) (g.columnStart col) (g.columnStop side col)

/-- Rows per segment of a tile of a width: at least 1 (R133). -/
def rowsPerSegment (maxSegment width : Nat) : Nat := max 1 ((maxSegment - 16) / width)

end Sys2Proof.Machine
end

