-- ==== Sys2Proof/Machine/Trigger.lean ====
section
/-! DEFINITION. The Trigger Unit: loop switches, groups, the offer of an entry to the lanes, overspeed ticks (02). -/

namespace Sys2Proof.Machine

/-- The entry pointer set by a boundary: to loop start, with no skipped groups; a group in progress will not move it past its own
entries (R29, R30, R31). -/
def Tru.pointerToStart (u : Tru) : Tru :=
  { u with pointer := u.loop.first, skipped := 0, group := u.group.map fun g => { g with pointerSet := true } }

/-- Staged loop bounds take effect (R29). -/
def Tru.switchLoop (u : Tru) : Tru :=
  match u.staged with
  | none => u
  | some b => Tru.pointerToStart { u with loop := b, staged := none }

/-- What a boundary does to the Trigger Unit: a staged switch, and the pointer to loop start when framing was SEEKING (R30, R71). -/
def Tru.takeBoundary (u : Tru) (wasSeeking : Bool) : Tru :=
  if wasSeeking then u.switchLoop.pointerToStart else u.switchLoop

/-- Every lane in REJOIN becomes ACTIVE at a boundary (R50, R71). -/
def Lane.promote (n : Lane) : Lane := if n.state = .rejoin then { n with state := .active } else n

/-- A fill mark made on a lane's fill path (R37, R58). -/
def State.fillMark (s : State) (l : Fin 8) (k : Fin 4) (p : Int) (c : FillCause) : State := s.resolve l k p (.filled c)

/-- The position a lane images at a tick, t − D. -/
def State.positionAt (s : State) (l : Fin 8) (tick : Int) : Int := tick - ((s.lanes.get l).record.offset : Int)

/-- A lane accepts an append: a trigger record at the tail, a tag, a TRIGGER packet, and the rejoin flag for a lane in REJOIN
(R34, R50). -/
def State.append (s : State) (l : Fin 8) (tick : Int) (e : Fin 8) (x : PhaseEntry) : State :=
  s.setLane l fun n =>
    { n with
      queue := n.queue ++
        [{ tag := n.nextTag, tick := tick, entry := e, plane := x.plane,
           deadline := s.now + n.record.timeoutUs * Config.unitsPerUs, rejoin := n.state = .rejoin }],
      nextTag := (n.nextTag + 1) % 65536,
      lastTrigger := some (triggerPacket e n.nextTag x.exposure) }

/-- A lane that holds 64 records refuses the append (R35). -/
def State.withhold (s : State) (l : Fin 8) (tick : Int) (x : PhaseEntry) : State :=
  ((s.fillMark l x.plane (s.positionAt l tick) .behind).countLane l fun c => { c with withheld := countUp 1 c.withheld }).raise
    .withheld (lane := some l)

/-- An entry offered to one lane, by the lane's state at the instant of issue (R33, R34, R35, R50). -/
def State.offerEntry (s : State) (tick : Int) (e : Fin 8) (x : PhaseEntry) (l : Fin 8) : State :=
  let n := s.lanes.get l
  match n.state with
  | .active => if n.queue.length < Config.recordsPerLane then s.append l tick e x else s.withhold l tick x
  | .rejoin =>
    if n.queue.length < Config.recordsPerLane then
      (s.append l tick e x).fillMark l x.plane (s.positionAt l tick) .rejoin
    else s.withhold l tick x
  | .down => s.fillMark l x.plane (s.positionAt l tick) .laneDown
  | .ready | .disabled => s

/-- The strobe outputs at an entry's issue: those of the mask go high for one exposure, the others are low (R32). -/
def Tru.pulse (u : Tru) (now : Nat) (x : PhaseEntry) : Tru :=
  { u with strobes := x.strobe, pulseEnd := if x.strobe = 0 then none else some (now + x.exposure * Config.unitsPerTenthUs) }

/-- Issue the next entry of the group in progress (R31, R32, R33). It reaches the lanes in the order 0 to 7, which the manual leaves open
(assumption 31). -/
def State.issueNext (s : State) : State :=
  match s.tru.group with
  | none => s
  | some g =>
    match g.entries[g.issued]? with
    | none => s
    | some e =>
      let x := s.tru.table.get e
      let s1 := { s with tru := s.tru.pulse s.now x }
      let s2 := indices.foldl (fun s l => s.offerEntry g.tick e x l) s1
      { s2 with tru := { s2.tru with group := some { g with issued := g.issued + 1 } } }

/-- Issue a group for a tick: its first entry at the tick itself (R31). -/
def State.issueGroup (s : State) (tick : Int) : State :=
  State.issueNext
    { s with tru := { s.tru with
      group := some { tick := tick, time := s.now, entries := groupAt s.tru.table s.tru.pointer, issued := 0,
                      pointerSet := false } } }

/-- The fill cause an overspeed tick gives a lane's rows, by the lane's state (R36). -/
def overspeedCause : LaneState → Option FillCause
  | .active => some .overspeed
  | .rejoin => some .rejoin
  | .down => some .laneDown
  | .ready | .disabled => none

/-- The marks of an overspeed tick on one lane (R36), its planes in the order of the loop's first group, which the manual leaves open
(assumption 31). -/
def State.overspeedMarks (s : State) (tick : Int) (l : Fin 8) : State :=
  match overspeedCause (s.lanes.get l).state with
  | none => s
  | some c => s.tru.planes.foldl (fun s k => s.fillMark l k (s.positionAt l tick) c) s

/-- An overspeed tick (R36), which reaches the lanes in the order 0 to 7 (assumption 31). -/
def State.overspeedTick (s : State) (tick : Int) : State :=
  let s1 := indices.foldl (fun s l => s.overspeedMarks tick l) s
  let s2 := { s1 with tru := { s1.tru with skipped := satAdd Config.edgeMax 1 s1.tru.skipped } }
  (s2.countPosition fun c => { c with overspeedTicks := countUp 1 c.overspeedTicks }).raise .overspeed

/-- The Trigger Unit decides a tick once the Frame Tracker has judged it (R30). -/
def State.decideTick (s : State) (tick : Int) : State :=
  if s.rnc.runState = .running ∧ s.frt.state = .tracking then
    if s.tru.group.isNone then s.issueGroup tick else s.overspeedTick tick
  else s

/-- The time at which entry k of a group is issued, and, for k = K, at which the group is done (R31). -/
def State.groupTime (s : State) (g : Group) (k : Nat) : Nat := g.time + k * s.tru.spacing * Config.unitsPerTenthUs

/-- The group in progress is done: the pointer moves past it, or on from where a boundary set it, and past the skipped groups
(R31). -/
def Tru.finishGroup (u : Tru) (g : Group) : Tru :=
  let base := if g.pointerSet then u.pointer else afterGroup u.loop g.entries
  { u with pointer := skipGroups u.table u.loop u.skipped base, skipped := 0, group := none }

end Sys2Proof.Machine
end

