-- ==== Sys2Proof/Machine/Framing.lean ====
section
/-! DEFINITION. The Frame Tracker: boundaries, truncation, the close test, short closes, the judging of a tick (04). -/

namespace Sys2Proof.Machine

/-! ## Closing (R76, R77) -/

/-- The close test from the oldest entry on: an entry passes when it is bounded and every enabled lane has effective progress
E − 1; the test stops at the first that fails (R76). -/
def closePassing (high : Int) : List OpenFrame → State → State
  | [], s => { s with frt := { s.frt with openList := [] } }
  | f :: fs, s =>
    match f.stop with
    | none => { s with frt := { s.frt with openList := f :: fs } }
    | some e =>
      if s.allReached high (e - 1) then
        closePassing high fs (s.closeSlot f.slot (e - f.start).toNat (if f.truncated then .truncated else .normal))
      else { s with frt := { s.frt with openList := f :: fs } }

/-- The close test under a high-water mark (R76). -/
def State.closeTest (s : State) (high : Int) : State := closePassing high s.frt.openList s

/-- The short row count R: the least effective progress − S + 1 over the enabled lanes, at most E − S for a bounded entry (R77). -/
def State.shortRows (s : State) (high : Int) (f : OpenFrame) : Int :=
  match least (s.enabledLanes.map fun l => s.effective high l - f.start + 1) with
  | none => 0
  | some r => match f.stop with
    | none => r
    | some e => min r (e - f.start)

/-- A short close of one entry: a close request with R rows, or the frame freed as empty (R77, R96). -/
def State.shortClose (s : State) (high : Int) (reason : CloseReason) (f : OpenFrame) : State :=
  let r := s.shortRows high f
  if 1 ≤ r then
    ((s.closeSlot f.slot r.toNat reason).countFrames fun c => { c with short := countUp 1 c.short }).raise .frameShort
      (frame := some f.number) (detail := closeReasonCode (some reason))
  else
    ((s.freeSlot f.slot).countFrames fun c => { c with droppedEmpty := countUp 1 c.droppedEmpty }).raise .frameDropped
      (frame := some f.number) (detail := DropReason.empty.code)

/-- Short-close every entry of the open list, oldest first (R77). -/
def State.shortCloseAll (s : State) (high : Int) (reason : CloseReason) : State :=
  let s' := s.frt.openList.foldl (fun s f => s.shortClose high reason f) s
  { s' with frt := { s'.frt with openList := [] } }

/-- Framing returns to SEEKING (R78, R79, R82). -/
def Frt.seek (t : Frt) : Frt := { t with state := .seeking, lastBoundary := none }

/-- A stall-close request (R78): one that finds SEEKING with an empty open list changes nothing. -/
def State.stallClose (s : State) : State :=
  if s.frt.state = .seeking ∧ s.frt.openList = [] then s
  else
    let s' := s.shortCloseAll s.ptk.high .shortStall
    { s' with frt := s'.frt.seek }

/-- A REWIND event, which carries the high-water mark from before it (R79, R80). -/
def State.rewindFrames (s : State) (before : Int) : State :=
  let s' := s.shortCloseAll before .shortRewind
  { s' with frt := { s'.frt.seek with rewindHold := true } }

/-- The close at stop of one entry (R82). -/
def State.stopClose (s : State) (f : OpenFrame) : State :=
  match f.stop with
  | none => s.shortClose s.ptk.high .shortStop f
  | some e =>
    if s.allReached s.ptk.high (e - 1) then
      s.closeSlot f.slot (e - f.start).toNat (if f.truncated then .truncated else .normal)
    else s.shortClose s.ptk.high .shortStop f

/-- The close at stop (R82). -/
def State.stopCloseAll (s : State) : State :=
  let s' := s.frt.openList.foldl State.stopClose s
  { s' with frt := { s'.frt with openList := [], state := .seeking }, rnc := { s'.rnc with closeAtStopMade := true } }

/-! ## Boundaries (R68 to R71, R75) -/

/-- Bound the newest entry if it is unbounded: at E, or at its row capacity, flagged truncated, where that comes first (R68). -/
def State.boundNewest (s : State) (stop : Int) : State :=
  match s.frt.openList.getLast? with
  | none => s
  | some f =>
    match f.stop with
    | some _ => s
    | none =>
      let full := f.start + (s.frt.capacity : Int)
      let cut := decide (full < stop)
      let f' := { f with stop := some (min stop full), truncated := f.truncated || cut }
      let s1 := { s with frt := { s.frt with openList := s.frt.openList.dropLast ++ [f'] } }
      let s2 := s1.boundSlot f.slot (min stop full)
      if cut then s2.countFrames fun c => { c with truncated := countUp 1 c.truncated } else s2

/-- A new frame is dropped: counted by its reason and raised (R69, R70). -/
def State.dropFrame (s : State) (number : Nat) (reason : DropReason) : State :=
  (s.countFrames fun c =>
      match reason with
      | .openLimit => { c with droppedOpenLimit := countUp 1 c.droppedOpenLimit }
      | .noSlot => { c with droppedNoSlot := countUp 1 c.droppedNoSlot }
      | .empty => { c with droppedEmpty := countUp 1 c.droppedEmpty }).raise
    .frameDropped (frame := some number) (detail := reason.code)

/-- The open limit, and then the allocation request (R69, R70). -/
def State.openFrame (s : State) (number : Nat) (start : Int) (kind : BoundaryKind) : State :=
  if Config.openLimit ≤ s.frt.openList.length then s.dropFrame number .openLimit
  else
    match s.allocate number start kind with
    | (none, s') => s'.dropFrame number .noSlot
    | (some i, s') =>
      let f : OpenFrame := { number := number, slot := i, start := start, stop := none, truncated := false }
      let s1 := { s' with frt := { s'.frt with openList := s'.frt.openList ++ [f] } }
      s1.countFrames fun c => { c with opened := countUp 1 c.opened }

/-- A boundary taken at a tick (R68, R71); a SYNTH boundary is counted and raised with the new frame's number (R73). The close
test of step 3 is made before the tick's own work, so with the high-water mark from before the tick (R59, R68). The start S, and the end
E that follows from it, are not cut to 48 bits (assumption 32). -/
def State.takeBoundary (s : State) (tick : Int) (kind : BoundaryKind) : State :=
  let number := s.frt.counter
  let start := tick + (s.frt.record.offset : Int)
  let s1 := { s with
    tru := s.tru.takeBoundary (decide (s.frt.state = FramingState.seeking)), lanes := s.lanes.map Lane.promote,
    frt := { s.frt with counter := (number + 1) % 4294967296 } }
  let s2 := if kind = .synth then
      (s1.countPosition fun c => { c with synthesisedIndex := countUp 1 c.synthesisedIndex }).raise .indexSynth
        (frame := some number)
    else s1
  let s3 := (s2.boundNewest start).closeTest (tick - 1)
  let s4 := s3.openFrame number start kind
  { s4 with frt := { s4.frt with lastBoundary := some tick, state := .tracking } }

/-- Truncation of the newest frame at the row capacity by a tick that carries no boundary (R75). -/
def State.truncateNewest (s : State) (tick : Int) : State :=
  match s.frt.openList.getLast? with
  | none => s
  | some f =>
    let full := f.start + (s.frt.capacity : Int)
    if f.stop = none ∧ full ≤ tick then
      let f' := { f with stop := some full, truncated := true }
      let s1 := { s with frt := { s.frt with openList := s.frt.openList.dropLast ++ [f'] } }
      (s1.boundSlot f.slot full).countFrames fun c => { c with truncated := countUp 1 c.truncated }
    else s

/-! ## Judging a tick (R67, R72 to R74) -/

/-- Index edges that are spurious: each counted, the source raised with the tick (R72, R73). -/
def State.spurious (s : State) (tick : Int) (edges : Nat) : State :=
  if edges = 0 then s
  else (s.countPosition fun c => { c with spuriousIndex := countUp edges c.spuriousIndex }).raise .indexSpurious (detail := tick)

/-- What a tick brings in RUNNING: a boundary of a kind or none, and how many of its edges are spurious (R67, R72 to R74). -/
def Frt.judge (t : Frt) (tick : Int) (edges : Nat) : Option BoundaryKind × Nat :=
  match t.state, t.record.mode with
  | .seeking, .indexed =>
    if edges = 0 then (none, 0) else if t.rewindHold then (none, edges) else (some .index, edges - 1)
  | .seeking, .fixed => if t.rewindHold then (none, 0) else (some .fixed, 0)
  | .tracking, .indexed =>
    match t.lastBoundary with
    | none => (none, 0)
    | some b =>
      let g := tick - b
      if 1 ≤ edges then
        if g < (t.record.nominal : Int) - (t.record.tolerance : Int) then (none, edges) else (some .index, edges - 1)
      else if g = (t.record.nominal : Int) + (t.record.tolerance : Int) then (some .synth, 0)
      else (none, 0)
  | .tracking, .fixed =>
    match t.lastBoundary with
    | none => (none, 0)
    | some b => if tick - b = (t.record.nominal : Int) then (some .fixed, 0) else (none, 0)

/-- The Frame Tracker judges a tick: nothing in DRAINING; in RUNNING a boundary, a truncation while TRACKING, or nothing (R67). -/
def State.judgeTick (s : State) (tick : Int) (edges : Nat) : State :=
  if s.rnc.runState = .running then
    match s.frt.judge tick edges with
    | (some kind, spare) => (s.takeBoundary tick kind).spurious tick spare
    | (none, spare) =>
      let s' := s.spurious tick spare
      if s.frt.state = .tracking then s'.truncateNewest tick else s'
  else s

/-- What follows every change of lane progress: the close test and the readiness test (R76, R117). -/
def State.progressed (s : State) : State := (s.closeTest s.ptk.high).readinessTest

end Sys2Proof.Machine
end

