-- ==== Sys2Proof/Machine/Routes.lean ====
section
/-! DEFINITION. The Delivery Engine's routes: the current frame, the plan of a frame, the column order and the order of tiles, and
what a route can offer its port (07, 08). -/

namespace Sys2Proof.Machine

/-! ## Records (R125, R126) -/

/-- The final states of a delivery record (7.1). -/
def RecordState.final : RecordState → Bool
  | .pending | .opened => false
  | .done | .revoked | .skipped | .aborted => true

/-- The record of least allocation number in a list. -/
def lowestAlloc : List Delivery → Option Delivery
  | [] => none
  | d :: ds => some (ds.foldl (fun m x => if x.alloc < m.alloc then x else m) d)

/-- A route's current frame: its non-final record with the lowest allocation number (R126). -/
def State.current (s : State) (r : Fin 8) : Option Delivery := lowestAlloc ((s.dle.records.get r).filter fun d => !d.state.final)

/-- Whether a frame is closed. -/
def Slot.isClosed (x : Slot) : Bool := x.rowCount.isSome

/-! ## The plan (R127, R128, R129) -/

/-- The delivered layers, clamped range and lead used of a frame on a route (R127, R128). With no delivered layer the plan keeps the
route record's range and lead column. -/
def planOf (r : RouteRecord) (g : Geometry) : Plan :=
  let heldLayers := g.layers.filter fun n => r.layers.getLsbD n
  let most := heldLayers.foldl (fun m n => max m (g.columns (layerSide n))) 0
  if heldLayers = [] ∨ most ≤ r.colFirst then
    { layers := [], colFirst := r.colFirst, colLast := r.colLast, lead := r.lead }
  else
    let last := min r.colLast (most - 1)
    { layers := heldLayers.filter fun n => r.colFirst < g.columns (layerSide n), colFirst := r.colFirst, colLast := last,
      lead := if r.lead < r.colFirst then r.colFirst else if last < r.lead then last else r.lead }

/-- The smallest power of two not below m, for m up to 128 (R128). -/
def powerFor (m : Nat) : Nat := ([1, 2, 4, 8, 16, 32, 64].find? fun q => m ≤ q).getD 128

/-- The column order of a plan (R128). -/
def Plan.columnOrder (p : Plan) : List Nat :=
  let m := p.colLast - p.colFirst + 1
  let r0 := p.lead - p.colFirst
  ((List.range (powerFor m)).map fun i => r0 ^^^ i).filterMap fun r => if r < m then some (p.colFirst + r) else none

/-- The tiles of one band of a plan in the order they go out, as tile column and layer: column order, and within a column the
delivered layers whose side has that column, ascending (R129). -/
def Plan.bandTiles (p : Plan) (g : Geometry) : List (Nat × Nat) :=
  p.columnOrder.flatMap fun c => (p.layers.filter fun n => c < g.columns (layerSide n)).map fun n => (c, n)

/-- The band count of a closed frame (R114). -/
def Slot.bandCount (x : Slot) : Nat := x.geometry.bands (x.rowCount.getD 0)

/-! ## What a route can offer (R130 to R132, R141, R145, R160) -/

/-- A unit of a route (7.5): the FRAME_OPEN as formed, one tile by column and layer, or a FRAME_END. -/
inductive Offer where
  | frameOpen (packet : Packet)
  | tile (col layer : Nat)
  | frameEnd (revoked : Bool)
deriving DecidableEq, Repr

/-- Whether a frame not closed has its first tile ready early and its first row resolved by every enabled lane (R130). -/
def State.earlyOpen (s : State) (x : Slot) (plan : Plan) : Bool :=
  match plan.bandTiles x.geometry with
  | [] => false
  | (c, n) :: _ => decide (0 < x.ready.count (layerSide n) c) && s.allReached s.ptk.high x.start

/-- The plan a PENDING record's FRAME_OPEN is formed with, with the lead column now in force, when it is sendable (R130). -/
def State.openPlan (s : State) (r : Fin 8) (d : Delivery) : Option Plan :=
  let x := s.slot d.slot
  let rec_ := s.dle.routes.get r
  let plan := planOf rec_ x.geometry
  if x.isClosed ∨ (rec_.early ∧ s.earlyOpen x plan) then some plan else none

/-- A route that is not paused forms the FRAME_OPEN of its current frame once it is sendable; formed, it stands as it is (R130, R136,
R141; assumption 39). -/
def State.formOpen (s : State) (r : Fin 8) : State :=
  match s.current r with
  | none => s
  | some d =>
    if d.state = .pending ∧ d.opening = none ∧ ¬ s.dle.paused.getLsbD r.val then
      match s.openPlan r d with
      | none => s
      | some plan =>
        s.setRecord r d.alloc fun y =>
          { y with plan := some plan, opening := some (frameOpenPacket r (s.dle.routes.get r).early (s.slot d.slot) plan) }
    else s

/-- The tile at the cursor or the FRAME_END COMPLETE of an OPENED record with no tile open, when it is sendable (R131, R132). -/
def State.offerNext (s : State) (d : Delivery) : Option Offer :=
  match d.plan with
  | none => none
  | some plan =>
    let x := s.slot d.slot
    match (plan.bandTiles x.geometry)[d.cursor.index]? with
    | none => if x.isClosed then some (.frameEnd false) else none
    | some (c, n) =>
      if x.isClosed then
        if d.cursor.band < x.bandCount then some (.tile c n) else some (.frameEnd false)
      else if d.cursor.band < x.ready.count (layerSide n) c then some (.tile c n) else none

/-- What a route offers its port: the FRAME_END REVOKED a revoke flag owes, paused or not; otherwise, unless the route is paused,
the next unit of its current frame (R141, R145, R160). -/
def State.offer (s : State) (r : Fin 8) : Option Offer :=
  match s.current r with
  | none => none
  | some d =>
    if d.state = .opened ∧ d.tileOpen then none
    else if d.revoke then (if d.state = .opened then some (.frameEnd true) else none)
    else if s.dle.paused.getLsbD r.val then none
    else match d.state with
      | .pending => d.opening.map .frameOpen
      | .opened => s.offerNext d
      | _ => none

/-! ## The wake-lead test (R164) -/

/-- The smaller of a position and E − 1 of a bounded frame. -/
def Slot.capTarget (x : Slot) (p : Int) : Int :=
  match x.stop with
  | none => p
  | some e => min p (e - 1)

/-- The lanes and the target position of a route's wake-lead test, none where there is no test (R164). -/
def State.wakeGate (s : State) (r : Fin 8) : Option (List (Fin 8) × Int) :=
  match s.current r with
  | none => none
  | some d =>
    let x := s.slot d.slot
    let g := x.geometry
    let rec_ := s.dle.routes.get r
    if x.isClosed then none
    else if rec_.early then
      match d.state, d.plan with
      | .opened, some plan =>
        match (plan.bandTiles g)[d.cursor.index]? with
        | none => none
        | some (c, n) =>
          some ((g.contributing (layerSide n) c).map GeoLane.lane,
            x.capTarget (x.start + ((d.cursor.band + 1) * g.tileHeight : Nat) - 1))
      | .pending, _ =>
        let sides := (planOf rec_ g).layers.map layerSide
        some ((g.lanes.filter fun y => sides.contains y.side).map GeoLane.lane, x.capTarget (x.start + (g.tileHeight : Int) - 1))
      | _, _ => none
    else match x.stop with
      | none => none
      | some e => some (s.enabledLanes, e - 1)

/-- The wake-lead test of a route: the slowest gating lane is within the wake lead of the target (R164). With no gating lane it fails
(assumption 37). -/
def State.wakeLeadPasses (s : State) (lead : Nat) (r : Fin 8) : Bool :=
  match s.wakeGate r with
  | none => false
  | some (lanes, target) =>
    match least (lanes.map fun l => s.effective s.ptk.high l) with
    | none => false
    | some p => decide (target - (lead : Int) ≤ p)

end Sys2Proof.Machine
end

