-- ==== Sys2Proof/Machine/HostPorts.lean ====
section
/-! DEFINITION. The host ports: the transmit arbiter, the segments of tiles, rest and wake, replies, and the port records (09). -/

namespace Sys2Proof.Machine

/-! ## Beginning a packet (R159) -/

/-- A port begins to transmit a packet. -/
def State.send (s : State) (p : Port) (source : TxSource) (k : Packet) : State :=
  s.setPort p fun h => { h with tx := some { source := source, packet := k } }

/-- Begin the segment at the cursor of an OPENED record whose tile's span is fixed (R133, R134). -/
def State.sendSegment (s : State) (p : Port) (r : Fin 8) (d : Delivery) (span : TileSpan) (col layer : Nat) : State :=
  let x := s.slot d.slot
  let first := d.cursor.band * x.geometry.tileHeight + d.cursor.row
  let rows := min span.rowsPerSegment (span.stop - first)
  let last := decide (span.stop ≤ first + rows)
  s.send p (.segment r d.alloc rows last)
    { kind := kindTile, stream := r.val, tag := frameTag x.frame,
      payload := s.segmentPayload d.slot layer col d.cursor.band first rows last false }

/-- The next packet of a route's tile in progress: its next segment, or the TILE_ABORT a revoke flag puts in its place (R145,
R159). -/
def State.continueTile (s : State) (p : Port) (r : Fin 8) : State :=
  match s.current r with
  | none => s
  | some d =>
    match d.plan, d.span with
    | some plan, some span =>
      match (plan.bandTiles (s.slot d.slot).geometry)[d.cursor.index]? with
      | none => s
      | some (c, n) =>
        if d.revoke ∧ d.tileOpen then
          s.send p (.tileAbort r d.alloc) (tileAbortPacket r (s.slot d.slot).frame n c d.cursor.band d.cursor.row)
        else s.sendSegment p r d span c n
    | _, _ => s

/-- The row after the last of a tile whose first segment is formed now: the band's end, or the row count of a closed frame where
that comes sooner (R131). -/
def Slot.tileStop (x : Slot) (band : Nat) : Nat :=
  let stop := (band + 1) * x.geometry.tileHeight
  match x.rowCount with
  | none => stop
  | some rows => min stop rows

/-- Begin a route's tile: its span and its rows per segment are fixed, and it becomes the tile in progress (R131, R133, R160). -/
def State.beginTile (s : State) (p : Port) (r : Fin 8) (d : Delivery) (col layer : Nat) : State :=
  let x := s.slot d.slot
  let width := x.geometry.tileColumnWidth (layerSide layer) col
  let span : TileSpan :=
    { stop := x.tileStop d.cursor.band, rowsPerSegment := rowsPerSegment (s.ports.get p).record.maxSegment width }
  let s1 := (s.setRecord r d.alloc fun y => { y with span := some span }).setPort p fun h => { h with tile := some (.route r) }
  s1.sendSegment p r d span col layer

/-- Begin the unit a route offers (R130, R132, R160). A FRAME_OPEN is transmitted as formed; a FRAME_END is formed here, as its
transmission begins, with the slot's values of that moment (assumption 40). -/
def State.serveRoute (s : State) (p : Port) (r : Fin 8) : State :=
  match s.current r, s.offer r with
  | some d, some (.frameOpen k) => s.send p (.frameOpen r d.alloc) k
  | some d, some (.tile c n) => s.beginTile p r d c n
  | some d, some (.frameEnd revoked) => s.send p (.frameEnd r d.alloc revoked) (frameEndPacket r revoked (s.slot d.slot))
  | _, _ => s

/-- The rows per segment of a reread entry, fixed with its first segment (R147). -/
def State.rereadRows (s : State) (p : Port) (e : Reread) : Nat :=
  match e.rowsPerSegment with
  | some n => n
  | none =>
    rowsPerSegment (s.ports.get p).record.maxSegment ((s.slot e.slot).geometry.tileColumnWidth (layerSide e.layer) e.col)

/-- Begin the next segment of the tile at the head of a port's reread queue (R147). -/
def State.serveReread (s : State) (p : Port) : State :=
  match s.dle.rereads.get p with
  | [] => s
  | e :: es =>
    let perSegment := s.rereadRows p e
    let rows := min perSegment (e.stop - e.next)
    let last := decide (e.stop ≤ e.next + rows)
    let s1 := (s.setRereads p fun _ => { e with rowsPerSegment := some perSegment } :: es).setPort p fun h =>
      { h with tile := some .reread }
    s1.send p (.reread e.alloc rows last)
      { kind := kindTile, stream := streamReread, tag := frameTag e.frame,
        payload := s.segmentPayload e.slot e.layer e.col e.band e.next rows last true }

/-! ## The arbiter (R159, R160) -/

/-- Whether a delivery source of a port is eligible: a route that names the port and offers a unit, or a reread queue that is not
empty (R160). -/
def State.eligible (s : State) (p : Port) (i : Fin 9) : Bool :=
  if h : i.val < 8 then decide ((s.dle.routes.get ⟨i.val, h⟩).port = p) && (s.offer ⟨i.val, h⟩).isSome
  else !(s.dle.rereads.get p).isEmpty

/-- The sources in cyclic order from the one after the round-robin pointer (R160). -/
def cyclicFrom (pointer : Fin 9) : List (Fin 9) := (List.range 9).map fun i => pointer + 1 + Fin.ofNat 9 i

/-- Step 4 of the arbiter: serve the first eligible source after the pointer (R160). -/
def State.serveNext (s : State) (p : Port) : State :=
  match (cyclicFrom (s.ports.get p).pointer).find? fun i => s.eligible p i with
  | none => s
  | some i =>
    let s1 := s.setPort p fun h => { h with pointer := i }
    if h : i.val < 8 then s1.serveRoute p ⟨i.val, h⟩ else s1.serveReread p

/-- Whether a port's arbiter makes a choice: UP, nothing in transmission, and not waiting on port A for a command reset that is
due (R159, R176). -/
def State.mayChoose (s : State) (p : Port) : Bool :=
  decide ((s.ports.get p).link = .up) && (s.ports.get p).tx.isNone && !(decide (p = .a) && s.rnc.resetDue)

/-- The arbiter's choice: a reply, a notice, the tile in progress, or one unit of a delivery source (R159). A new unit waits while a
staged port record is to take effect (R162). -/
def State.choose (s : State) (p : Port) : State :=
  if s.mayChoose p then
    let h := s.ports.get p
    match h.replies, h.notices, h.tile with
    | some k :: _, _, _ => s.send p .reply k
    | _, k :: _, _ => s.send p .notice k
    | _, [], some (.route r) => s.continueTile p r
    | _, [], some .reread => s.serveReread p
    | _, [], none => if h.staged.isSome then s else s.serveNext p
  else s

/-! ## Rest and wake (R163, R164) -/

/-- The routes of a port. -/
def State.routesOf (s : State) (p : Port) : List (Fin 8) := indices.filter fun r => (s.dle.routes.get r).port = p

/-- Whether a reply, a notice or an eligible delivery source of a port is present (R163, R164). -/
def State.workPresent (s : State) (p : Port) : Bool :=
  let h := s.ports.get p
  h.replies.any Option.isSome || !h.notices.isEmpty || (cyclicFrom h.pointer).any fun i => s.eligible p i

/-- Whether some route of a port meets the wake-lead test (R163, R164). -/
def State.leadPresent (s : State) (p : Port) (routes : List (Fin 8)) : Bool :=
  routes.any fun r => s.wakeLeadPasses (s.ports.get p).record.wakeLead r

/-- The routes of a port that are not paused. -/
def State.unpaused (s : State) (p : Port) : List (Fin 8) := (s.routesOf p).filter fun r => !s.dle.paused.getLsbD r.val

/-- Whether a port is transmitting a REST. -/
def HostPort.sendingRest (h : HostPort) : Bool :=
  match h.tx with
  | some { source := .rest, .. } => true
  | _ => false

/-- A wake cause: a RESTING port becomes WAKING, and the wake timer starts (R164); a port that is transmitting a REST owes a wake at its
last byte (R163). -/
def State.startWake (s : State) (p : Port) : State :=
  if (s.ports.get p).link = .resting then s.setPort p fun h => { h with link := .waking, wakeTimer := some s.now }
  else if (s.ports.get p).sendingRest then s.setPort p fun h => { h with wakeOwed := true }
  else s

/-- The wake causes: work present or, after a tick or a change of lane progress, a wake-lead test that a route of the port, not paused,
passes (R164). They are the causes for a port that is transmitting its REST too, where R163 does not say whether a paused route's test
counts (assumption 41). -/
def State.wake (s : State) (p : Port) (lead : Bool) : State :=
  if s.workPresent p ∨ (lead ∧ s.leadPresent p (s.unpaused p)) then s.startWake p else s

/-- The idle timer runs from the moment the port is UP with the transmitter idle and none of the items of R159 present, and stops
when that ends (R163). -/
def State.idleUpkeep (s : State) (p : Port) : State :=
  s.setPort p fun h =>
    if h.link = .up ∧ h.tx = none ∧ h.tile = none ∧ ¬ s.workPresent p then { h with idleTimer := some (h.idleTimer.getD s.now) }
    else { h with idleTimer := none }

/-- The routes of a port that is not DOWN form the FRAME_OPENs that have become sendable (R130, R149; assumption 39). -/
def State.formOpens (s : State) (p : Port) : State :=
  if (s.ports.get p).link = .down then s else (s.routesOf p).foldl State.formOpen s

/-- Every rest condition of R163 but the idle timer's own. Like the arbiter, port A begins no REST while a command reset is due
(assumption 19). -/
def State.restReady (s : State) (p : Port) : Bool :=
  let h := s.ports.get p
  h.record.restEnable && s.mayChoose p && h.tile.isNone && !s.workPresent p && !s.leadPresent p (s.routesOf p)

/-- A port begins a REST, and its idle timer stops (R163). -/
def State.beginRest (s : State) (p : Port) : State :=
  (s.send p .rest restPacket).setPort p fun h => { h with wakeOwed := false, idleTimer := none }

/-- R163 judged: with every rest condition met and the idle timer at or beyond the rest delay, the port begins a REST. -/
def State.judgeRest (s : State) (p : Port) : State :=
  match (s.ports.get p).idleTimer with
  | none => s
  | some t =>
    if (s.ports.get p).record.restDelay * Config.unitsPerUs ≤ s.elapsed t ∧ s.restReady p then s.beginRest p else s

/-- One port after a step: the FRAME_OPENs of its routes, wake, the arbiter's choice, the idle timer, and rest, which begins whichever
of its conditions came last (R163). -/
def State.settlePort (s : State) (p : Port) (lead : Bool) : State :=
  ((((s.formOpens p).wake p lead).choose p).idleUpkeep p).judgeRest p

/-- Both ports after a step; lead says that a tick was handed on or that lane progress changed (R164). -/
def State.settle (s : State) (lead : Bool) : State := (s.settlePort .a lead).settlePort .b lead

/-- Both ports after a step that has made this state from an earlier one: the wake-lead test is made where lane progress has changed
(R60, R164; assumption 18). -/
def State.settleFrom (t s : State) : State := t.settle (s.progressMoved t)

/-! ## Completed packets (R165) -/

/-- A packet has been transmitted to its last byte: it is counted out, and the transmitter is free. -/
def State.finishTx (s : State) (p : Port) (k : Packet) : State :=
  (s.setPort p fun h => { h with tx := none }).countPort p fun c =>
    { c with packetsOut := countUp 1 c.packetsOut, payloadBytesOut := countUp k.length c.payloadBytesOut }

/-! ## Replies and port records (R158, R162, R170) -/

/-- A command's reply is filled in the place reserved for it at the tail of its port's reply queue (R157, R170). -/
def State.reply (s : State) (p : Port) (command : InPacket) (result : Result) (record : List Byte) : State :=
  s.setPort p fun h => { h with replies := h.replies ++ [some (replyPacket command result record)] }

/-- Fill the first reserved place that is not yet filled. -/
def fillReserved (k : Packet) : List (Option Packet) → List (Option Packet)
  | [] => []
  | none :: xs => some k :: xs
  | some y :: xs => some y :: fillReserved k xs

/-- A port record takes effect: with rest enable set R163 is judged at once, under the new rest delay; with rest enable clear it is a wake
cause (R162, R164). This comes before the reply of its SET_PORT is filled (assumption 38). -/
def State.portRecordInForce (s : State) (p : Port) (r : PortRecord) : State :=
  let s1 := s.setPort p fun h => { h with record := r, staged := none }
  if r.restEnable then s1.judgeRest p else s1.startWake p

/-- The SET_PORT held in hand for a port is answered OK, and its port of arrival is free to take the next packet (R162, R168). -/
def State.answerHeld (s : State) (named arrival : Port) : State :=
  match s.rnc.inHand.get arrival with
  | none => s
  | some c =>
    if asPort (byteAt c.payload 0) = some named then
      let s1 := s.setPort arrival fun h => { h with replies := fillReserved (replyPacket c .ok []) h.replies }
      { s1 with rnc := { s1.rnc with inHand := s1.rnc.inHand.set arrival none } }
    else s

end Sys2Proof.Machine
end

