-- ==== Sys2Proof/Machine/Position.lean ====
section
/-! DEFINITION. The Position Tracker: counts, ticks, reverse travel, stall and motion, index edges (01), and the meanings of COUNT,
ENCODER_ERROR, INDEX_EDGE, STALL and STALL_CLOSE_EXPIRY. -/

namespace Sys2Proof.Machine

/-! ## Quadrature (R3) -/

/-- The levels of ENC_A and ENC_B after one line has changed. -/
def afterChange (a b : Bool) : EncLine → Bool × Bool
  | .encA => (!a, b)
  | .encB => (a, !b)

/-- Whether a transition runs forward with normal polarity: the table of R3. -/
def forwardTransition : Bool × Bool → Bool × Bool → Bool
  | (false, false), (true, false) => true
  | (true, false), (true, true) => true
  | (true, true), (false, true) => true
  | (false, true), (false, false) => true
  | _, _ => false

/-- Whether a count is forward, under the direction polarity in force (R1, R3). -/
def Ptk.countForward (k : Ptk) (line : EncLine) : Bool :=
  xor (forwardTransition (k.quadA, k.quadB) (afterChange k.quadA k.quadB line)) k.scale.swapped

/-- The decoder's part of a count: the quadrature state and the encoder count, which wraps (R3). -/
def Ptk.decode (k : Ptk) (line : EncLine) : Ptk :=
  { k with
    quadA := (afterChange k.quadA k.quadB line).1, quadB := (afterChange k.quadA k.quadB line).2,
    encoderCount := if k.countForward line then k.encoderCount + 1 else k.encoderCount - 1 }

/-! ## Stall and motion (R12, R13) -/

/-- The motion logic takes a count (R12, R13). -/
def State.moved (s : State) : State :=
  match s.ptk.motion with
  | .moving => { s with ptk := { s.ptk with stallTimer := some s.now } }
  | .stalled =>
    State.raise { s with ptk := { s.ptk with motion := .moving, stallTimer := some s.now, stallCloseTimer := none } } .motion

/-- The stall-close timer as it starts from 0 under a stall close time, stopped when that is 0 (R2, R12). -/
def closeTimerFrom (stallCloseS now : Nat) : Option Nat := if stallCloseS = 0 then none else some now

/-- The Position Tracker enters STALLED (R12). -/
def State.enterStalled (s : State) : State :=
  State.raise
    { s with ptk := { s.ptk with
      motion := .stalled, stallTimer := none, stallCloseTimer := closeTimerFrom s.ptk.scale.stallCloseS s.now } } .stall

/-! ## Ticks (R5 to R9, R15, R18) -/

/-- The interval an emitted tick measures (R15). -/
def measured (start : Option Nat) (now : Nat) : Option Nat :=
  start.map fun t => min Config.counterMax (max 1 (now - t))

/-- H takes the value of T, and the tick ends one interval and starts the next (R7, R15). -/
def Ptk.emit (k : Ptk) (now : Nat) : Ptk :=
  { k with high := k.tick, interval := measured k.tickTimer now, tickTimer := some now }

/-- A tick is handed to the Trigger Unit and the Frame Tracker with its index edges: judged, decided, and followed by the tests of
lane progress (R8, R18, R30, R67). -/
def State.handTick (s : State) : State :=
  let tick := s.ptk.tick
  let edges := s.ptk.pendingEdges
  let s1 := { s with ptk := { s.ptk with pendingEdges := 0 } }
  ((s1.judgeTick tick edges).decideTick tick).progressed

/-- A tick is emitted: counted in every run state, handed on in RUNNING and DRAINING alone (R7, R8). -/
def State.emitTick (s : State) : State :=
  let s1 := { s with ptk := s.ptk.emit s.now }
  let s2 := s1.countPosition fun c => { c with ticks := countUp 1 c.ticks }
  if s2.rnc.runState = .config then s2 else s2.handTick

/-- An encoder error is counted (R4, R9). -/
def State.encoderErrorCounted (s : State) : State :=
  s.countPosition fun c => { c with encoderErrors := countUp 1 c.encoderErrors }

/-- A forward count reaches the accumulator (R5, R7, R9). -/
def State.forwardCount (s : State) : State :=
  let k := s.ptk
  let a := k.acc + k.scale.step
  if a < k.scale.pitch then { s with ptk := { k with acc := a } }
  else if Config.tickMax < k.tick + 1 then s.encoderErrorCounted
  else
    let s' := { s with ptk := { k with acc := a - k.scale.pitch, tick := k.tick + 1 } }
    if k.high < k.tick + 1 then s'.emitTick else s'

/-! ## Reverse travel (R6, R9, R11) -/

/-- A REWIND is declared (R11); its NOTICE carries the H just set (assumption 43). -/
def State.rewind (s : State) : State :=
  let before := s.ptk.high
  let s1 := { s with ptk := { s.ptk with high := s.ptk.tick, tickTimer := none, interval := none } }
  let s2 := (s1.countPosition fun c => { c with rewinds := countUp 1 c.rewinds }).raise .rewind
  if s2.rnc.runState = .config then s2 else (s2.rewindFrames before).progressed

/-- A reverse count reaches the accumulator (R6, R9, R11). -/
def State.reverseCount (s : State) : State :=
  let k := s.ptk
  if k.scale.step ≤ k.acc then { s with ptk := { k with acc := k.acc - k.scale.step } }
  else if k.tick - 1 < Config.tickMin then s.encoderErrorCounted
  else
    let s' := { s with ptk := { k with acc := k.acc + k.scale.pitch - k.scale.step, tick := k.tick - 1 } }
    if k.scale.reverseLimit ≠ 0 ∧ (k.scale.reverseLimit : Int) ≤ s'.ptk.debt then s'.rewind else s'

/-- A count: the decoder, then the motion logic, then the accumulator (R3). -/
def State.takeCount (s : State) (line : EncLine) : State :=
  let forward := s.ptk.countForward line
  let s' := State.moved { s with ptk := s.ptk.decode line }
  if forward then s'.forwardCount else s'.reverseCount

/-! ## Meanings -/

/-- COUNT (R3). Ports make the wake-lead test at a tick handed on, in RUNNING and DRAINING, and where lane progress has changed, as by a
REWIND (R8, R60, R164). -/
def execCount (line : EncLine) (s : State) : Host.Outcome State Fault Refusal :=
  s.whenPowered fun s =>
    let t := s.takeCount line
    let handed := s.rnc.runState ≠ .config ∧ s.ptk.high < t.ptk.high
    t.settle (decide handed || s.progressMoved t)

/-- ENCODER_ERROR (R4): both lines change; only the quadrature state and the counter follow. -/
def execEncoderError (s : State) : Host.Outcome State Fault Refusal :=
  s.whenPowered fun s =>
    (State.encoderErrorCounted { s with ptk := { s.ptk with quadA := !s.ptk.quadA, quadB := !s.ptk.quadB } }).settle false

/-- INDEX_EDGE (R17): an edge of the chosen polarity is counted and, outside CONFIG, raises the pending index edges. -/
def execIndexEdge (rising : Bool) (s : State) : Host.Outcome State Fault Refusal :=
  s.whenPowered fun s =>
    if rising = s.ptk.scale.indexFalling then s.settle false
    else
      let s1 := s.countPosition fun c => { c with indexEdges := countUp 1 c.indexEdges }
      let s2 :=
        if s1.rnc.runState = .config then s1
        else { s1 with ptk := { s1.ptk with pendingEdges := satAdd Config.edgeMax 1 s1.ptk.pendingEdges } }
      s2.settle false

/-- STALL (R12): the running stall timer reaches the stall time. -/
def execStall (s : State) : Host.Outcome State Fault Refusal :=
  s.whenPowered fun s =>
    match s.ptk.motion, s.ptk.stallTimer with
    | .moving, some t => ((s.advanceTo (t + s.ptk.scale.stallMs * Config.unitsPerMs)).enterStalled).settle false
    | _, _ => s

/-- STALL_CLOSE_EXPIRY (R14, R78): the running stall-close timer reaches the stall close time; in a run the Frame Tracker takes a
stall-close request. -/
def execStallCloseExpiry (s : State) : Host.Outcome State Fault Refusal :=
  s.whenPowered fun s =>
    match s.ptk.motion, s.ptk.stallCloseTimer with
    | .stalled, some t =>
      let s1 := s.advanceTo (t + s.ptk.scale.stallCloseS * Config.unitsPerS)
      let s2 := { s1 with ptk := { s1.ptk with stallCloseTimer := none } }
      (if s2.rnc.runState = .config then s2 else s2.stallClose).settle false
    | _, _ => s

end Sys2Proof.Machine
end

