-- ==== Sys2Proof/Machine/Lanes.lean ====
section
/-! DEFINITION. The Lane Receivers: link reports, received packets, tag matching, placements and timeouts (03), and the meanings of
LANE_LINK_UP, LANE_LINK_LOSS, LANE_PACKET_RECEIVED, LINE_TIMEOUT and PLACEMENT_COMPLETE. -/

namespace Sys2Proof.Machine

/-! ## Resolutions (R50, R57, R58) -/

/-- A record resolved with a cause: its mark, unless its rejoin flag says that it is marked already (R50). -/
def State.resolveRecord (s : State) (l : Fin 8) (c : FillCause) (q : TrigRecord) : State :=
  if q.rejoin then s else s.fillMark l q.plane (s.positionAt l q.tick) c

/-- A record resolved LOST: counted in the lost counter, with or without its mark (R53, R57). -/
def State.loseRecord (s : State) (l : Fin 8) (q : TrigRecord) : State :=
  (s.countLane l fun c => { c with lost := countUp 1 c.lost }).resolveRecord l .lost q

/-! ## Link reports (R48, R49) -/

/-- A link-up report of a lane: one that finds the link up changes nothing (R48). -/
def State.laneUp (s : State) (l : Fin 8) : State :=
  let n := s.lanes.get l
  if n.linkUp then s
  else
    let s1 := s.setLane l fun n => { n with linkUp := true }
    if n.state = .down then
      (s1.setLane l fun n => { n with state := if s.rnc.runState = .config then .ready else .rejoin }).raise .laneUp
        (lane := some l)
    else s1

/-- Whether a lane is in one of the states that a link loss ends (R49). -/
def LaneState.live : LaneState → Bool
  | .ready | .active | .rejoin => true
  | .disabled | .down => false

/-- A link-loss report of a lane: records first, oldest first, then placements, then the buffers, the state and the notice (R49). -/
def State.laneLost (s : State) (l : Fin 8) : State :=
  let n := s.lanes.get l
  let s1 := s.setLane l fun n => { n with linkUp := false }
  if n.state.live then
    let s2 := s1.setLane l fun n => { n with state := .down, queue := [], placements := [] }
    let s3 := n.queue.foldl (fun s q => s.resolveRecord l .laneDown q) s2
    let s4 := n.placements.foldl (fun s y => s.fillMark l y.plane y.position .laneDown) s3
    (s4.raise .laneDown (lane := some l)).progressed
  else s1

/-! ## Matching (R53 to R56) -/

/-- A placement that no frame keeps completes at once when it stands first (R56, R111): the line is counted and its buffer freed. -/
def State.dropOrphans (s : State) (l : Fin 8) : List Placement → State
  | [] => s.setLane l fun n => { n with placements := [] }
  | y :: ys =>
    match y.place with
    | some _ => s.setLane l fun n => { n with placements := y :: ys }
    | none => (s.countLane l fun c => { c with linesWritten := countUp 1 c.linesWritten }).dropOrphans l ys

/-- A taken line goes to the Stitch Unit: brought to its expected length, with the short-line or long-line counter, and given the
place the Slot Manager answers (R55, R56, R101). -/
def State.place (s : State) (l : Fin 8) (q : TrigRecord) (length : Nat) (line : List Byte) : State :=
  let r := (s.lanes.get l).record
  let p := s.positionAt l q.tick
  let s1 :=
    if length < r.expected then s.countLane l fun c => { c with shortLine := countUp 1 c.shortLine }
    else if r.expected < length then s.countLane l fun c => { c with longLine := countUp 1 c.longLine }
    else s
  let y : Placement := { plane := q.plane, tick := q.tick, position := p, pixels := r.fit line, place := s.placeFor l q.plane p }
  s1.dropOrphans l ((s.lanes.get l).placements ++ [y])

/-- A record taken by a line is judged: the Stream byte, the payload check, the rejoin flag, and then the placement (R54). -/
def State.takeLine (s : State) (l : Fin 8) (q : TrigRecord) (h : Header) (check : CheckMark) (line : List Byte) : State :=
  if h.stream ≠ q.entry.val ∨ check = .fail then
    (s.countLane l fun c => { c with check := countUp 1 c.check }).resolveRecord l .check q
  else if q.rejoin then s
  else s.place l q h.length line

/-- A received LINE is matched by its tag against the trigger queue (R53). -/
def State.matchLine (s : State) (l : Fin 8) (h : Header) (check : CheckMark) (line : List Byte) : State :=
  let queue := (s.lanes.get l).queue
  let stray := s.countLane l fun c => { c with stray := countUp 1 c.stray }
  match queue with
  | [] => stray
  | oldest :: _ =>
    let d := (h.tag + 65536 - oldest.tag % 65536) % 65536
    match queue[d]? with
    | none => stray
    | some q =>
      let s1 := s.setLane l fun n => { n with queue := queue.drop (d + 1) }
      ((queue.take d).foldl (fun s q => s.loseRecord l q) s1).takeLine l q h check line

/-- An upstream packet: damaged or wrongly kinded, an overrun, or a line (R51, R52). The packet is judged as it ends, against the lane as
it then is: one that ends after a command reset is judged by the last sentence of R62, whenever it began (assumption 42). -/
def State.receiveLane (s : State) (l : Fin 8) (bytes : List Byte) : State :=
  let packetError := s.countLane l fun c => { c with packetErrors := countUp 1 c.packetErrors }
  match readHeader bytes with
  | none => packetError
  | some h =>
    if h.kind ≠ kindLine then packetError
    else if Config.lineBuffers ≤ (s.lanes.get l).placements.length then
      s.countLane l fun c => { c with overrun := countUp 1 c.overrun }
    else s.matchLine l h (judgePayload h bytes) ((payloadOf h bytes).take Config.lineBufferBytes)

/-! ## Completion and expiry (R56, R57) -/

/-- The first placement of a lane completes: the line is written if its slot still holds the allocation number given, then
resolved WRITTEN; it is counted and its buffer freed either way (R56, R101, R111). -/
def State.finishPlacement (s : State) (l : Fin 8) (y : Placement) (rest : List Placement) : State :=
  let s1 := s.setLane l fun n => { n with placements := rest }
  let s2 :=
    match y.place with
    | some pl =>
      if s1.stillHolds pl then (s1.writeLine l y.plane pl y.pixels).resolve l y.plane y.position .written else s1
    | none => s1
  (s2.countLane l fun c => { c with linesWritten := countUp 1 c.linesWritten }).dropOrphans l rest

/-- The records at the head of a queue whose deadlines have passed (R57). -/
def expired (now : Nat) (queue : List TrigRecord) : List TrigRecord := queue.takeWhile fun q => q.deadline ≤ now

/-- The oldest record's deadline passes, and with it every record behind it whose deadline has also passed (R57). -/
def State.expireRecords (s : State) (l : Fin 8) : State :=
  let queue := (s.lanes.get l).queue
  let gone := expired s.now queue
  let s1 := s.setLane l fun n => { n with queue := queue.drop gone.length }
  gone.foldl (fun s q => s.loseRecord l q) s1

/-! ## Meanings -/

/-- LANE_LINK_UP (R48). -/
def execLaneLinkUp (l : Fin 8) (s : State) : Host.Outcome State Fault Refusal :=
  s.whenPowered fun s => (s.laneUp l).settle false

/-- LANE_LINK_LOSS (R49). -/
def execLaneLinkLoss (l : Fin 8) (s : State) : Host.Outcome State Fault Refusal :=
  s.whenPowered fun s => (s.laneLost l).settleFrom s

/-- LANE_PACKET_RECEIVED (R51), in every lane state and run state. -/
def execLanePacketReceived (l : Fin 8) (bytes : List Byte) (s : State) : Host.Outcome State Fault Refusal :=
  s.whenPowered fun s => ((s.receiveLane l bytes).progressed).settleFrom s

/-- LINE_TIMEOUT (R57): the deadline of a lane's oldest record is reached. -/
def execLineTimeout (l : Fin 8) (s : State) : Host.Outcome State Fault Refusal :=
  s.whenPowered fun s =>
    match (s.lanes.get l).queue with
    | [] => s
    | q :: _ => (((s.advanceTo q.deadline).expireRecords l).progressed).settleFrom s

/-- Whether a placement writes past the end of the line store (R87). -/
def State.placementOutside (s : State) (l : Fin 8) (y : Placement) : Bool :=
  match y.place with
  | some pl =>
    s.stillHolds pl
      && decide (Config.storeBytes < s.lineAddress l y.plane pl + ((s.lanes.get l).record.kept y.pixels).length)
  | none => false

/-- PLACEMENT_COMPLETE (R56): the Stitch Unit finishes writing the first of a lane's placements. -/
def execPlacementComplete (l : Fin 8) (s : State) : Host.Outcome State Fault Refusal :=
  match (s.lanes.get l).placements with
  | [] => .next s
  | y :: rest =>
    if s.pwrOk && s.placementOutside l y then .fault .lineStoreRange
    else s.whenPowered fun s => ((s.finishPlacement l y rest).progressed).settleFrom s

end Sys2Proof.Machine
end

