-- ==== Sys2Proof/Machine/Records.lean ====
section
/-! DEFINITION. The records that replies carry: identity, status, counters and the setup records (12.5, R178 to R180). -/

namespace Sys2Proof.Machine

/-- The identity record, which is fixed (R178, 12.5). -/
def identityRecord : List Byte :=
  le 2 0x0B71 ++ le 2 2840 ++ le 1 3 ++ le 1 8 ++ le 1 2 ++ le 1 0 ++ le 8 Config.storeBytes

/-- A lane's two fields of the status record (R61). -/
def laneStatus (n : Lane) : List Byte := le 1 n.state.code ++ le 1 n.queue.length

/-- The frame number of a slot record, or 0 where it is absent (R187). -/
def frameOrZero (x : Option Slot) : Nat := (x.map Slot.frame).getD 0

/-- The reverse debt's field: 48 bits signed. A debt beyond their range, which the manual gives no value for, reads as a free value
(R20; assumption 30). -/
def Ptk.debtField (k : Ptk) : List Byte :=
  if k.debt ≤ Config.tickMax then leSigned 6 k.debt else le 6 (Config.wideDebt k.debt).toNat

/-- The status record (R179, 12.5). -/
def State.statusRecord (s : State) : List Byte :=
  let oldest := oldestOf s.framesInStore
  let newest := newestOf s.framesInStore
  le 1 s.rnc.runState.code ++ le 1 s.frt.state.code ++ le 1 s.ptk.motion.code ++ le 1 s.ptk.direction.code
    ++ s.ptk.debtField ++ leSigned 6 s.ptk.tick ++ leSigned 6 s.ptk.high
    ++ le 4 s.ptk.speed ++ leSigned 4 s.ptk.encoderCount.toInt
    ++ s.lanes.toList.flatMap laneStatus
    ++ le 1 (s.slotsIn .free) ++ le 1 (s.slotsIn .opened) ++ le 1 (s.slotsIn .closed) ++ le 1 (s.slotsIn .held)
    ++ le 1 (bits [oldest.isSome, newest.isSome]) ++ le 1 0
    ++ le 4 (frameOrZero oldest) ++ le 4 (frameOrZero newest)
    ++ le 1 s.ports.a.link.code ++ le 1 s.ports.b.link.code ++ le 1 s.dle.paused.toNat ++ le 1 0
    ++ le 2 s.ntu.pending.toNat ++ le 2 s.ntu.enable.toNat

/-- A lane's nine counters in the order of R61. -/
def LaneCounters.record (c : LaneCounters) : List Byte :=
  le 4 c.linesWritten ++ le 4 c.lost ++ le 4 c.check ++ le 4 c.stray ++ le 4 c.overrun ++ le 4 c.withheld ++ le 4 c.shortLine
    ++ le 4 c.longLine ++ le 4 c.packetErrors

/-- The position group in the order of 11.4. -/
def PositionCounters.record (c : PositionCounters) : List Byte :=
  le 4 c.ticks ++ le 4 c.overspeedTicks ++ le 4 c.encoderErrors ++ le 4 c.rewinds ++ le 4 c.indexEdges ++ le 4 c.spuriousIndex
    ++ le 4 c.synthesisedIndex

/-- The frames group in the order of 11.4. -/
def FrameCounters.record (c : FrameCounters) : List Byte :=
  le 4 c.opened ++ le 4 c.droppedOpenLimit ++ le 4 c.droppedNoSlot ++ le 4 c.droppedEmpty ++ le 4 c.evicted ++ le 4 c.short
    ++ le 4 c.truncated ++ le 4 c.fillRunOverflows

/-- A port's six counters in the order of 11.4. -/
def PortCounters.record (c : PortCounters) : List Byte :=
  le 4 c.packetsOut ++ le 4 c.payloadBytesOut ++ le 4 c.headerErrors ++ le 4 c.payloadErrors ++ le 4 c.commandOverruns
    ++ le 4 c.abortedFrames

/-- The counters record (R185, 12.5). -/
def Counters.record (c : Counters) : List Byte :=
  c.lanes.toList.flatMap LaneCounters.record ++ c.position.record ++ c.frames.record ++ c.ports.a.record ++ c.ports.b.record

/-- The scale record in the SET_SCALE layout (12.3). -/
def ScaleRecord.record (r : ScaleRecord) : List Byte :=
  le 4 r.step ++ le 4 r.pitch ++ le 1 (bits [r.swapped, r.indexFalling]) ++ le 1 0 ++ le 2 r.stallMs ++ le 2 r.stallCloseS
    ++ le 2 r.reverseLimit

/-- A phase entry in the SET_PHASES layout: plane in bits 0 and 1, end-of-group in bit 7 (12.3). -/
def PhaseEntry.record (e : PhaseEntry) : List Byte :=
  le 1 (e.plane.val + 128 * e.endOfGroup.toNat) ++ le 1 e.strobe.toNat ++ le 2 e.exposure

/-- The phase record with its additions: staged bounds or absent, the plane set and K (R41, 12.5). -/
def Tru.record (u : Tru) : List Byte :=
  u.table.toList.flatMap PhaseEntry.record ++ le 1 u.loop.first.val ++ le 1 u.loop.last.val ++ le 2 u.spacing
    ++ (match u.staged with
        | some b => le 1 1 ++ le 1 b.first.val ++ le 1 b.last.val
        | none => le 1 0 ++ le 1 0 ++ le 1 0)
    ++ le 1 u.planeSet.toNat ++ le 1 u.planes.length

/-- A lane record in the SET_LANE layout (12.3). -/
def LaneRecord.record (r : LaneRecord) (l : Fin 8) : List Byte :=
  le 1 l.val ++ le 1 (bits [r.enable, decide (r.side = .bottom), r.mirror]) ++ le 2 r.offset ++ le 2 r.expected ++ le 2 r.keepFirst
    ++ le 2 r.keepLast ++ le 2 r.column ++ [r.fill] ++ le 1 0 ++ le 2 r.timeoutUs

/-- The framing record in the SET_FRAMING layout (12.3). -/
def FramingRecord.record (r : FramingRecord) : List Byte :=
  le 1 r.mode.code ++ le 1 0 ++ le 2 r.nominal ++ le 2 r.tolerance ++ le 2 r.offset

/-- The layout record with each side's tile column count (R108, 12.5). -/
def LayoutRecord.record (r : LayoutRecord) : List Byte :=
  le 2 r.widthTop ++ le 2 r.widthBottom ++ le 2 r.tileWidth ++ le 2 r.tileHeight ++ le 1 r.planes.toNat ++ le 1 0
    ++ le 1 (ceilDiv r.widthTop r.tileWidth) ++ le 1 (ceilDiv r.widthBottom r.tileWidth)

/-- The store record with slot bytes, row bytes and row capacity (R86, R87, 12.5). -/
def State.storeRecord (s : State) : List Byte :=
  le 1 s.slm.record.count ++ le 1 s.slm.record.policy.code ++ le 4 s.slm.record.slotBytes ++ le 4 s.geometry.rowBytes
    ++ le 2 s.rowCapacity

/-- A route record in the SET_ROUTE layout (12.3). -/
def RouteRecord.record (r : RouteRecord) (n : Fin 8) : List Byte :=
  le 1 n.val ++ le 1 (bits [r.enable, decide (r.port = .b), r.early]) ++ le 1 r.layers.toNat ++ le 1 r.colFirst ++ le 1 r.colLast
    ++ le 1 r.stride ++ le 1 r.phase ++ le 1 r.lead

/-- A port record in the SET_PORT layout (12.3). -/
def PortRecord.record (r : PortRecord) (p : Port) : List Byte :=
  le 1 (portCode p) ++ le 1 r.restEnable.toNat ++ le 2 r.maxSegment ++ le 4 r.restDelay ++ le 2 r.wakeLead

/-- The port record in force, and the staged record or zeros (R161, 12.5). -/
def HostPort.portRecord (h : HostPort) (p : Port) : List Byte :=
  h.record.record p ++ le 1 h.staged.isSome.toNat ++ le 1 0
    ++ (match h.staged with
        | some r => r.record p
        | none => List.replicate 10 0)

/-- The record a selector names (R180). -/
def State.configRecord (s : State) : Selector → List Byte
  | .scale => s.ptk.scale.record
  | .phase => s.tru.record
  | .lane l => (s.lanes.get l).record.record l
  | .framing => s.frt.record.record
  | .layout => s.layout.record
  | .store => s.storeRecord
  | .route r => (s.dle.routes.get r).record r
  | .port p => (s.ports.get p).portRecord p
  | .notice => le 2 s.ntu.enable.toNat

end Sys2Proof.Machine
end

