-- ==== Sys2Proof/Machine/RunControl.lean ====
section
/-! DEFINITION. The Run Controller: taking a command packet, the checks and the reply (R157, R168 to R170); run states and resets
(R172 to R177); and the meanings of IDENTIFY to GET_CONFIG, RUN_START, RUN_STOP, RESET, UNKNOWN_KIND, COMMAND_RESET, POWER_UP,
PWR_OK_LOW and END_OF_DRAINING. -/

namespace Sys2Proof.Machine

/-! ## Taking a command (R157, R168) -/

/-- The packet the Run Controller may take from a port, with the rest of the inbound buffer: none while the buffer is empty, the
reply queue holds 8 replies and reserved places, a SET_PORT is held in hand, or a reset pending holds port A (R157, R168, R176). -/
def State.takeable (s : State) (p : Port) : Option (InPacket × List InPacket) :=
  let h := s.ports.get p
  if Config.replyLimit ≤ h.replies.length ∨ (s.rnc.inHand.get p).isSome ∨ (p = .a ∧ s.rnc.resetPending) then none
  else match h.inbound with
    | [] => none
    | c :: rest => some (c, rest)

/-- Whether the state accepts a command (R169, check 5; R86). -/
def State.accepts (s : State) (row : CommandRow) : Bool :=
  match row.acceptedIn with
  | .any => true
  | .config => decide (s.rnc.runState = .config) && (row.code ≠ codeSetStore || s.slotsIn .held = 0)
  | .running => s.rnc.runState = .running

/-- The first of checks 1 to 5 of R169 that fails. -/
def State.firstRefusal (s : State) (p : Port) (c : InPacket) : Option Result :=
  if c.check = .fail then some .badCheck
  else match commandRow c.kind with
    | none => some .unknownKind
    | some row =>
      if c.length ≠ row.length then some .badLength
      else if p = .b ∧ ¬ row.fromB then some .denied
      else if ¬ s.accepts row then some .busy
      else none

/-- How the owner of a command's effect answers it: refused under its own checks, accepted with the state after the effect and the
record asked for, or held until a staged port record takes effect (R162, R168). -/
inductive Answer where
  | refuse (r : Result)
  | accept (s : State) (record : List Byte)
  | hold (s : State)

/-- A packet has been taken from a port's inbound buffer: it is checked, handed to its owner, and answered (R168 to R170). A held
command keeps a reserved place and stays in hand. -/
def State.answer (s : State) (p : Port) (c : InPacket) (owner : InPacket → State → Answer) : State :=
  match s.firstRefusal p c with
  | some r => s.reply p c r []
  | none =>
    match owner c s with
    | .refuse r => s.reply p c r []
    | .accept s' record => s'.reply p c .ok record
    | .hold s' =>
      let s1 := s'.setPort p fun h => { h with replies := h.replies ++ [none] }
      { s1 with rnc := { s1.rnc with inHand := s1.rnc.inHand.set p (some c) } }

/-- Take the command at the head of a port's inbound buffer, if it may be taken and its kind is the one named; otherwise nothing is
taken and nothing changes (assumption 1). -/
def State.command (s : State) (p : Port) (code : Nat) (owner : InPacket → State → Answer) : State :=
  match s.takeable p with
  | none => s
  | some (c, rest) =>
    if c.kind = code then ((s.setPort p fun h => { h with inbound := rest }).answer p c owner).settle false else s

/-! ## Reading commands (R178 to R180, R185) -/

def identifyOwner (_ : InPacket) (s : State) : Answer := .accept s identityRecord

def getStatusOwner (_ : InPacket) (s : State) : Answer := .accept s s.statusRecord

/-- GET_STATS: the counters as they stand, zeroed in the same event with the clear flag at 1 (R185). -/
def getStatsOwner (c : InPacket) (s : State) : Answer :=
  match asBool (byteAt c.payload 0) with
  | none => .refuse .badValue
  | some clear =>
    .accept (if clear then { s with ntu := { s.ntu with counters := Counters.zero } } else s) s.ntu.counters.record

def getConfigOwner (c : InPacket) (s : State) : Answer :=
  match readSelector c.payload with
  | none => .refuse .badValue
  | some x => .accept s (s.configRecord x)

/-! ## Run states (R171 to R175) -/

/-- The run state changes and RUN_STATE is raised (R171). -/
def State.enterRunState (s : State) (r : RunState) : State :=
  State.raise { s with rnc := { s.rnc with runState := r } } .runState (detail := r.code)

/-- Check 2 of R172: every enabled lane within its side, no two of one side sharing a column. -/
def State.rangesOk (s : State) : Bool :=
  s.enabledLanes.all fun i =>
    let r := (s.lanes.get i).record
    decide (r.lastColumn < s.layout.width r.side) && s.enabledLanes.all fun j =>
      let q := (s.lanes.get j).record
      i = j || r.side ≠ q.side || !rangesMeet r.column r.lastColumn q.column q.lastColumn

/-- The planes in use hold every plane of a plane set (R108, R172). -/
def LayoutRecord.holdsPlanes (y : LayoutRecord) (planes : BitVec 4) : Bool := planes &&& ~~~ y.planes = 0

/-- Check 4 of R172: every enabled route's port, by its staged record if it has one, takes a row of a full tile. -/
def State.segmentsOk (s : State) : Bool :=
  indices.all fun r =>
    let x := s.dle.routes.get r
    let h := s.ports.get x.port
    !x.enable || decide (s.layout.tileWidth + 16 ≤ (h.staged.getD h.record).maxSegment)

/-- The consistency checks of RUN_START (R172). -/
def State.runStartOk (s : State) : Bool :=
  !s.enabledLanes.isEmpty && s.rangesOk && s.layout.holdsPlanes s.tru.planeSet && s.segmentsOk && decide (16 ≤ s.rowCapacity)

/-- A lane at RUN_START (R63). -/
def Lane.runStart (n : Lane) : Lane :=
  { n with state := if n.state = .ready then .active else n.state, queue := [], nextTag := 0, placements := [] }

/-- Every slot that is neither FREE nor HELD is freed (R106). -/
def State.freeRunSlots (s : State) : State :=
  (List.range s.slm.slots.length).foldl
    (fun s i => if (s.slot i).state = .free ∨ (s.slot i).state = .held then s else s.freeSlot i) s

/-- The effects of an accepted RUN_START (R23, R43, R63, R85, R106, R173), in the order in which R173 lists them but for the slots: RUN_STATE
is raised last, so its NOTICE carries the H of 0 (assumption 43). -/
def State.startRun (s : State) : State :=
  let s1 := s.freeRunSlots
  let s2 := { s1 with
    ptk := { s1.ptk with
      encoderCount := 0, acc := 0, tick := 0, high := 0, tickTimer := none, interval := none, pendingEdges := 0 },
    tru := { s1.tru with pointer := s1.tru.loop.first, group := none, skipped := 0, staged := none },
    lanes := s1.lanes.map Lane.runStart,
    frt := { Frt.reset with record := s1.frt.record, capacity := s1.rowCapacity } }
  s2.enterRunState .running

def runStartOwner (_ : InPacket) (s : State) : Answer := if s.runStartOk then .accept s.startRun [] else .refuse .conflict

/-- A delivery record becomes final and is reported (R125, R137). -/
def State.finalize (s : State) (r : Fin 8) (d : Delivery) (x : RecordState) : State :=
  (s.setRecord r d.alloc fun y => { y with state := x, opening := none, revoke := false, tileOpen := false, span := none }).reportFinal
    r d.slot

/-- The PENDING records of the routes of a port become SKIPPED and are reported (R150). -/
def State.skipPending (s : State) (p : Port) : State :=
  (s.routesOf p).foldl
    (fun s r => ((s.dle.records.get r).filter fun d => d.state = .pending).foldl (fun s d => s.finalize r d .skipped) s) s

/-- The effects of an accepted RUN_STOP (R81, R150, R174). -/
def State.stopRun (s : State) : State :=
  let s1 := { s with
    frt := { s.frt with stopTick := some s.ptk.high, triggersEnded := false },
    rnc := { s.rnc with closeAtStopMade := false } }
  let s2 := s1.enterRunState .draining
  [Port.a, Port.b].foldl (fun s p => if (s.ports.get p).link = .down then s.skipPending p else s) s2

def runStopOwner (_ : InPacket) (s : State) : Answer := .accept s.stopRun []

/-- Whether draining can end: the close at stop has been made and every slot is FREE or HELD (R175). -/
def State.drained (s : State) : Bool :=
  decide (s.rnc.runState = .draining) && s.rnc.closeAtStopMade && s.allFreeOrHeld

/-- A lane at the end of draining (R64). -/
def Lane.runEnd (n : Lane) : Lane := if n.state = .active ∨ n.state = .rejoin then { n with state := .ready } else n

/-- The Trigger Unit at the end of draining: staged bounds take effect and the pointer goes to loop start (R29, R44). -/
def Tru.runEnd (u : Tru) : Tru := { u.switchLoop with pointer := u.switchLoop.loop.first, skipped := 0 }

/-- The end of draining (R17, R44, R64, R175). -/
def State.endRun (s : State) : State :=
  State.enterRunState
    { s with ptk := { s.ptk with pendingEdges := 0 }, tru := s.tru.runEnd, lanes := s.lanes.map Lane.runEnd } .config

/-! ## Resets (R22, R42, R62, R84, R105, R121, R138, R151, R166, R167, R176, R177, R186) -/

/-- RESET: answered at once; from now on it holds port A (R176). -/
def resetOwner (_ : InPacket) (s : State) : Answer := .accept { s with rnc := { s.rnc with resetPending := true } } []

/-- What a packet in transmission is after a command reset: the frames are gone (R105, R138, R151). -/
def TxSource.detached : TxSource → TxSource
  | .frameOpen r _ => .frameOpen r 0
  | .segment r _ rows last => .segment r 0 rows last
  | .tileAbort r _ => .tileAbort r 0
  | .frameEnd r _ revoked => .frameEnd r 0 revoked
  | .reread _ rows last => .reread 0 rows last
  | .reply => .reply
  | .notice => .notice
  | .rest => .rest

/-- Whether a packet in transmission is one of the tile in progress: a segment, or the TILE_ABORT in its place (R159). -/
def TxSource.ofTile : TxSource → Bool
  | .segment .. | .tileAbort .. | .reread .. => true
  | .reply | .notice | .frameOpen .. | .frameEnd .. | .rest => false

/-- A host port at a command reset; the RESET arrived on port A, whose inbound buffer, reply queue and notice queue are emptied. A
packet in transmission completes, and a tile in progress is abandoned only then (R167; assumption 19). The default record has rest enable
clear, so a RESTING port wakes, and one that is transmitting a REST owes a wake (R163, R167; assumption 15). -/
def HostPort.commandReset (h : HostPort) (p : Port) (now : Nat) : HostPort :=
  { HostPort.reset with
    link := if h.link = .resting then .waking else h.link,
    wakeTimer := if h.link = .resting then some now else h.wakeTimer,
    wakeOwed := h.sendingRest,
    tx := h.tx.map fun x => { x with source := x.source.detached },
    tile := if h.tx.any fun x => x.source.ofTile then h.tile else none,
    inbound := match p with
      | .a => []
      | .b => h.inbound,
    replies := match p with
      | .a => []
      | .b => h.replies }

/-- The command reset (R176): every block takes its reset values, the pending flags of the notices among them (R186, against R182:
assumption 29); the link states, the levels of the encoder lines, the contents of the line store, the clock and the waiting commands are
kept. -/
def State.commandResetState (s : State) : State :=
  { State.powerUpValues s.pending s.now s.slm.store s.pwrOk s.ptk.quadA s.ptk.quadB with
    lanes := s.lanes.map fun n => Lane.reset n.linkUp,
    ports := { a := s.ports.a.commandReset .a s.now, b := s.ports.b.commandReset .b s.now } }

/-! ## Meanings -/

/-- IDENTIFY (R178). -/
def execIdentify (p : Port) (s : State) : Host.Outcome State Fault Refusal :=
  s.whenPowered fun s => s.command p codeIdentify identifyOwner

/-- GET_STATUS (R179). -/
def execGetStatus (p : Port) (s : State) : Host.Outcome State Fault Refusal :=
  s.whenPowered fun s => s.command p codeGetStatus getStatusOwner

/-- GET_STATS (R185). -/
def execGetStats (p : Port) (s : State) : Host.Outcome State Fault Refusal :=
  s.whenPowered fun s => s.command p codeGetStats getStatsOwner

/-- GET_CONFIG (R180). -/
def execGetConfig (p : Port) (s : State) : Host.Outcome State Fault Refusal :=
  s.whenPowered fun s => s.command p codeGetConfig getConfigOwner

/-- RUN_START (R172, R173). -/
def execRunStart (p : Port) (s : State) : Host.Outcome State Fault Refusal :=
  s.whenPowered fun s => s.command p codeRunStart runStartOwner

/-- RUN_STOP (R174). -/
def execRunStop (p : Port) (s : State) : Host.Outcome State Fault Refusal :=
  s.whenPowered fun s => s.command p codeRunStop runStopOwner

/-- RESET (R176). -/
def execReset (p : Port) (s : State) : Host.Outcome State Fault Refusal :=
  s.whenPowered fun s => s.command p codeReset resetOwner

/-- UNKNOWN_KIND (R169): a packet whose kind is not a command code is answered BAD_CHECK or UNKNOWN_KIND. -/
def execUnknownKind (p : Port) (s : State) : Host.Outcome State Fault Refusal :=
  s.whenPowered fun s =>
    match s.takeable p with
    | none => s
    | some (c, rest) =>
      if commandRow c.kind = none then
        ((s.setPort p fun h => { h with inbound := rest }).answer p c fun _ _ => .refuse .unknownKind).settle false
      else s

/-- COMMAND_RESET (R176): taken once the RESET reply's last byte has been transmitted. -/
def execCommandReset (s : State) : Host.Outcome State Fault Refusal :=
  s.whenPowered fun s => if s.rnc.resetDue then s.commandResetState.settle false else s

/-- POWER_UP (R177): PWR_OK rises with the encoder lines at the levels given. -/
def execPowerUp (encA encB : Bool) (s : State) : Host.Outcome State Fault Refusal :=
  .next (State.powerUpValues s.pending s.now s.slm.store true encA encB)

/-- PWR_OK_LOW (R166, R177): the part is held in power-up reset. -/
def execPwrOkLow (s : State) : Host.Outcome State Fault Refusal :=
  .next (State.powerUpValues s.pending s.now s.slm.store false s.ptk.quadA s.ptk.quadB)

/-- END_OF_DRAINING (R175). -/
def execEndOfDraining (s : State) : Host.Outcome State Fault Refusal :=
  s.whenPowered fun s => if s.drained then s.endRun.settle false else s

end Sys2Proof.Machine
end

