-- ==== Sys2Proof/Machine/Setup.lean ====
section
/-! DEFINITION. The commands that write setup records, and their meanings: SET_SCALE to SET_NOTICES and SET_LOOP (R1, R2, R24 to R28,
R45 to R47, R65, R66, R86, R107, R108, R122, R123, R161, R162, R183). -/

namespace Sys2Proof.Machine

/-! ## SET_SCALE (R1, R2) -/

/-- An accepted scale record (R2): A, the tick timer and I start afresh; a running stall timer already at the new stall time enters
STALLED at once; the stall-close timer of a stall starts again. -/
def State.applyScale (s : State) (r : ScaleRecord) : State :=
  let s1 := { s with ptk := { s.ptk with scale := r, acc := 0, tickTimer := none, interval := none } }
  match s.ptk.motion with
  | .moving =>
    match s.ptk.stallTimer with
    | some t => if r.stallMs * Config.unitsPerMs ≤ s.elapsed t then s1.enterStalled else s1
    | none => s1
  | .stalled => { s1 with ptk := { s1.ptk with stallCloseTimer := closeTimerFrom r.stallCloseS s.now } }

def setScaleOwner (c : InPacket) (s : State) : Answer :=
  match readScale c.payload with
  | none => .refuse .badValue
  | some r => if r.pitch < r.step then .refuse .conflict else .accept (s.applyScale r) []

/-! ## SET_PHASES and SET_LOOP (R24 to R28) -/

def setPhasesOwner (c : InPacket) (s : State) : Answer :=
  match readPhases c.payload with
  | none => .refuse .badValue
  | some (table, loop, spacing) =>
    if loopOk table loop spacing then
      .accept { s with tru := { s.tru with
        table := table, loop := loop, spacing := spacing, pointer := loop.first, skipped := 0, staged := none } } []
    else .refuse .badValue

def setLoopOwner (c : InPacket) (s : State) : Answer :=
  match readLoop (byteAt c.payload 0) (byteAt c.payload 1) with
  | none => .refuse .badValue
  | some loop =>
    if ¬ loopOk s.tru.table loop s.tru.spacing then .refuse .badValue
    else if s.rnc.runState = .config then
      .accept { s with tru := { s.tru with loop := loop, pointer := loop.first } } []
    else if planeMask (planesOf s.tru.table loop) ≠ s.tru.planeSet then .refuse .conflict
    else .accept { s with tru := { s.tru with staged := some loop } } []

/-! ## SET_LANE (R45 to R47) -/

/-- The lane state that follows a new enable field and the link state (R47). -/
def laneStateAfter (before : LaneState) (enable linkUp : Bool) : LaneState :=
  if enable then
    match before with
    | .disabled => if linkUp then .ready else .down
    | x => x
  else .disabled

/-- The comparison of an enabled lane's destination range with its side and with the other enabled lanes of that side (R46). -/
def State.laneFits (s : State) (l : Fin 8) (r : LaneRecord) : Bool :=
  decide (r.lastColumn < s.layout.width r.side) && s.enabledLanes.all fun j =>
    let q := (s.lanes.get j).record
    j = l || q.side ≠ r.side || !rangesMeet r.column r.lastColumn q.column q.lastColumn

def setLaneOwner (c : InPacket) (s : State) : Answer :=
  match readLane c.payload with
  | none => .refuse .badValue
  | some (l, r) =>
    if r.enable ∧ ¬ s.laneFits l r then .refuse .conflict
    else .accept (s.setLane l fun n => { n with record := r, state := laneStateAfter n.state r.enable n.linkUp }) []

/-! ## SET_FRAMING (R65, R66) -/

def setFramingOwner (c : InPacket) (s : State) : Answer :=
  match readFraming c.payload with
  | none => .refuse .badValue
  | some r => if r.nominal ≤ r.tolerance then .refuse .conflict else .accept { s with frt := { s.frt with record := r } } []

/-! ## SET_LAYOUT (R107, R108) -/

/-- The consistency checks of a layout record (R108). -/
def State.layoutFits (s : State) (y : LayoutRecord) : Bool :=
  (s.enabledLanes.all fun l => decide ((s.lanes.get l).record.lastColumn < y.width (s.lanes.get l).record.side))
    && y.holdsPlanes s.tru.planeSet

def setLayoutOwner (c : InPacket) (s : State) : Answer :=
  match readLayout c.payload with
  | none => .refuse .badValue
  | some y => if s.layoutFits y then .accept { s with layout := y } [] else .refuse .conflict

/-! ## SET_STORE (R86) -/

def setStoreOwner (c : InPacket) (s : State) : Answer :=
  match readStore c.payload with
  | none => .refuse .badValue
  | some r =>
    .accept { s with slm := { s.slm with record := r, slots := List.replicate r.count Slot.empty } } []

/-! ## SET_ROUTE (R122, R123) -/

def setRouteOwner (c : InPacket) (s : State) : Answer :=
  match readRoute c.payload with
  | none => .refuse .badValue
  | some (n, r) =>
    if r.enable ∧ (s.ports.get r.port).record.maxSegment < s.layout.tileWidth + 16 then .refuse .conflict
    else .accept { s with dle := { s.dle with routes := s.dle.routes.set n r } } []

/-! ## SET_PORT (R161, R162) -/

/-- A SET_PORT takes effect at once when its port has no tile in progress; otherwise the record is staged and the command is held
in hand (R162, R168). -/
def setPortOwner (c : InPacket) (s : State) : Answer :=
  match readPort c.payload with
  | none => .refuse .badValue
  | some (p, r) =>
    if r.maxSegment < s.layout.tileWidth + 16 ∧ (s.routesOf p).any (fun i => (s.dle.routes.get i).enable) then .refuse .conflict
    else if (s.ports.get p).tile = none then .accept (s.portRecordInForce p r) []
    else .hold (s.setPort p fun h => { h with staged := some r })

/-! ## SET_NOTICES (R183) -/

def setNoticesOwner (c : InPacket) (s : State) : Answer :=
  .accept { s with ntu := { s.ntu with enable := BitVec.ofNat 16 (u16 c.payload 0) } } []

/-! ## Meanings -/

/-- SET_SCALE (R1, R2). -/
def execSetScale (p : Port) (s : State) : Host.Outcome State Fault Refusal :=
  s.whenPowered fun s => s.command p codeSetScale setScaleOwner

/-- SET_PHASES (R24 to R26). -/
def execSetPhases (p : Port) (s : State) : Host.Outcome State Fault Refusal :=
  s.whenPowered fun s => s.command p codeSetPhases setPhasesOwner

/-- SET_LANE (R45 to R47). -/
def execSetLane (p : Port) (s : State) : Host.Outcome State Fault Refusal :=
  s.whenPowered fun s => s.command p codeSetLane setLaneOwner

/-- SET_FRAMING (R65, R66). -/
def execSetFraming (p : Port) (s : State) : Host.Outcome State Fault Refusal :=
  s.whenPowered fun s => s.command p codeSetFraming setFramingOwner

/-- SET_LAYOUT (R107, R108). -/
def execSetLayout (p : Port) (s : State) : Host.Outcome State Fault Refusal :=
  s.whenPowered fun s => s.command p codeSetLayout setLayoutOwner

/-- SET_STORE (R86). -/
def execSetStore (p : Port) (s : State) : Host.Outcome State Fault Refusal :=
  s.whenPowered fun s => s.command p codeSetStore setStoreOwner

/-- SET_ROUTE (R122, R123). -/
def execSetRoute (p : Port) (s : State) : Host.Outcome State Fault Refusal :=
  s.whenPowered fun s => s.command p codeSetRoute setRouteOwner

/-- SET_PORT (R161, R162). -/
def execSetPort (p : Port) (s : State) : Host.Outcome State Fault Refusal :=
  s.whenPowered fun s => s.command p codeSetPort setPortOwner

/-- SET_NOTICES (R183). -/
def execSetNotices (p : Port) (s : State) : Host.Outcome State Fault Refusal :=
  s.whenPowered fun s => s.command p codeSetNotices setNoticesOwner

/-- SET_LOOP (R27, R28). -/
def execSetLoop (p : Port) (s : State) : Host.Outcome State Fault Refusal :=
  s.whenPowered fun s => s.command p codeSetLoop setLoopOwner

end Sys2Proof.Machine
end

