-- ==== Sys2Proof/Machine/DeliveryControl.lean ====
section
/-! DEFINITION. Delivery control and the commands on frames (08; R97, R98, R136, R183), and the meanings of PAUSE to
CLEAR_NOTICES. An owner is told the port of arrival where port B's privileges bear on it (R157). -/

namespace Sys2Proof.Machine

/-! ## PAUSE, RESUME, SET_LEAD (R136, R140) -/

/-- The routes a mask names that a port may act on: from port B, only those whose route record names port B (R140, R143, R157). -/
def State.namedRoutes (s : State) (p : Port) (mask : Nat) : List (Fin 8) :=
  indices.filter fun r => mask.testBit r.val && (p = .a || (s.dle.routes.get r).port = .b)

/-- A set of routes as a mask of eight bits. -/
def routeMask (routes : List (Fin 8)) : BitVec 8 := routes.foldl (fun m r => m ||| BitVec.twoPow 8 r.val) 0

/-- Whether a port is transmitting a route's FRAME_OPEN, or its FRAME_END COMPLETE, for the frame of an allocation number. -/
def HostPort.sendingOpen (h : HostPort) (r : Fin 8) (alloc : Nat) : Bool :=
  match h.tx with
  | some { source := .frameOpen q a, .. } => q = r && a = alloc
  | _ => false
def HostPort.sendingEnd (h : HostPort) (r : Fin 8) (alloc : Nat) : Bool :=
  match h.tx with
  | some { source := .frameEnd q a false, .. } => q = r && a = alloc
  | _ => false

/-- A route's FRAME_OPEN that is formed and not in transmission is taken back; it will be formed anew (R141). -/
def State.takeBackOpen (s : State) (r : Fin 8) : State :=
  s.setRecords r fun ds => ds.map fun d =>
    if d.state = .pending ∧ ¬ (s.ports.get (s.dle.routes.get r).port).sendingOpen r d.alloc then
      { d with plan := none, opening := none }
    else d

/-- PAUSE: the routes named join the paused mask, and their FRAME_OPENs not yet in transmission are caught (R140, R141). -/
def pauseOwner (p : Port) (c : InPacket) (s : State) : Answer :=
  let named := s.namedRoutes p (byteAt c.payload 0)
  .accept (named.foldl State.takeBackOpen { s with dle := { s.dle with paused := s.dle.paused ||| routeMask named } }) []

def resumeOwner (p : Port) (c : InPacket) (s : State) : Answer :=
  .accept { s with dle := { s.dle with paused := s.dle.paused &&& ~~~ routeMask (s.namedRoutes p (byteAt c.payload 0)) } } []

def setLeadOwner (p : Port) (c : InPacket) (s : State) : Answer :=
  match readLead c.payload with
  | none => .refuse .badValue
  | some (r, lead) =>
    if p = .a ∨ (s.dle.routes.get r).port = .b then
      .accept { s with dle := { s.dle with routes := s.dle.routes.set r { s.dle.routes.get r with lead := lead } } } []
    else .accept s []

/-! ## REVOKE (R143 to R145) -/

/-- Set the revoke flag of a route's record for a frame. -/
def State.flagRevoke (s : State) (r : Fin 8) (alloc : Nat) : State := s.setRecord r alloc fun y => { y with revoke := true }

/-- REVOKE on one route's record for the frame of an allocation number (R144, R145). -/
def State.revokeOn (s : State) (alloc : Nat) (r : Fin 8) : State :=
  match s.recordOf r alloc with
  | none => s
  | some d =>
    let h := s.ports.get (s.dle.routes.get r).port
    match d.state with
    | .pending => if h.sendingOpen r alloc then s.flagRevoke r alloc else s.finalize r d .revoked
    | .opened => if h.sendingEnd r alloc then s else s.flagRevoke r alloc
    | _ => s

def revokeOwner (p : Port) (c : InPacket) (s : State) : Answer :=
  match s.lookupCapture (u32 c.payload 0) with
  | none => .refuse .notFound
  | some i =>
    .accept ((s.namedRoutes p (byteAt c.payload 4)).foldl (fun t r => t.revokeOn (s.slot i).alloc r) s) []

/-! ## RETAIN and RELEASE (R97, R98) -/

def retainOwner (c : InPacket) (s : State) : Answer :=
  match s.lookupCapture (u32 c.payload 0) with
  | none => .refuse .notFound
  | some i =>
    if (s.slot i).state = .held ∨ (s.slot i).retain then .accept s []
    else if Config.retainLimit ≤ s.retainedCount then .refuse .limit
    else .accept (s.setSlot i fun x => { x with retain := true }) []

def releaseOwner (c : InPacket) (s : State) : Answer :=
  match s.lookupHeld (u32 c.payload 0) with
  | none => .refuse .notFound
  | some i =>
    match (s.slot i).state with
    | .free => .accept s []
    | .opened => .accept (s.setSlot i fun x => { x with retain := false }) []
    | .closed => .accept ((s.setSlot i fun x => { x with retain := false }).freeingTest i) []
    | .held =>
      if (s.slot i).pendingRereads = 0 then .accept (s.freeSlot i) []
      else .accept (s.setSlot i fun x => { x with releasePending := true }) []

/-! ## REREAD (R146) -/

/-- Whether a frame has a tile by layer, band and tile column; the bands of a frame not closed are not judged (R146, check 2). -/
def Slot.hasTile (x : Slot) (layer band col : Nat) : Bool :=
  decide (layer ≤ 7) && x.geometry.layers.contains layer && decide (col < x.geometry.columns (layerSide layer))
    && (!x.isClosed || decide (band < x.bandCount))

/-- Whether a frame may be reread (R146, check 3). -/
def Slot.mayReread (x : Slot) : Bool :=
  (x.state = .held || (x.state = .closed && x.retain)) && !x.releasePending

/-- REREAD (R146); one taken while its port is DOWN is queued there all the same (R154), until the link comes up (R149; assumption 36). -/
def rereadOwner (p : Port) (c : InPacket) (s : State) : Answer :=
  match s.lookupHeld (u32 c.payload 0) with
  | none => .refuse .notFound
  | some i =>
    let x := s.slot i
    let layer := byteAt c.payload 4
    let col := byteAt c.payload 5
    let band := u16 c.payload 6
    if ¬ x.hasTile layer band col then .refuse .badValue
    else if ¬ x.mayReread then .refuse .conflict
    else if Config.rereadLimit ≤ (s.dle.rereads.get p).length then .refuse .limit
    else
      let first := band * x.geometry.tileHeight
      let e : Reread :=
        { slot := i, alloc := x.alloc, frame := x.frame, layer := layer, band := band, col := col, first := first,
          stop := x.tileStop band, next := first, rowsPerSegment := none, isOpen := false }
      .accept ((s.setRereads p fun es => es ++ [e]).setSlot i fun y => { y with pendingRereads := y.pendingRereads + 1 }) []

/-! ## CLEAR_NOTICES (R183) -/

def clearNoticesOwner (c : InPacket) (s : State) : Answer :=
  .accept { s with ntu := { s.ntu with pending := s.ntu.pending &&& ~~~ BitVec.ofNat 16 (u16 c.payload 0) } } []

/-! ## Meanings -/

/-- PAUSE (R140, R141). -/
def execPause (p : Port) (s : State) : Host.Outcome State Fault Refusal :=
  s.whenPowered fun s => s.command p codePause (pauseOwner p)

/-- RESUME (R140). -/
def execResume (p : Port) (s : State) : Host.Outcome State Fault Refusal :=
  s.whenPowered fun s => s.command p codeResume (resumeOwner p)

/-- REVOKE (R143 to R145). -/
def execRevoke (p : Port) (s : State) : Host.Outcome State Fault Refusal :=
  s.whenPowered fun s => s.command p codeRevoke (revokeOwner p)

/-- RETAIN (R97). -/
def execRetain (p : Port) (s : State) : Host.Outcome State Fault Refusal :=
  s.whenPowered fun s => s.command p codeRetain retainOwner

/-- RELEASE (R98). -/
def execRelease (p : Port) (s : State) : Host.Outcome State Fault Refusal :=
  s.whenPowered fun s => s.command p codeRelease releaseOwner

/-- REREAD (R146). -/
def execReread (p : Port) (s : State) : Host.Outcome State Fault Refusal :=
  s.whenPowered fun s => s.command p codeReread (rereadOwner p)

/-- SET_LEAD (R136). -/
def execSetLead (p : Port) (s : State) : Host.Outcome State Fault Refusal :=
  s.whenPowered fun s => s.command p codeSetLead (setLeadOwner p)

/-- CLEAR_NOTICES (R183). -/
def execClearNotices (p : Port) (s : State) : Host.Outcome State Fault Refusal :=
  s.whenPowered fun s => s.command p codeClearNotices clearNoticesOwner

end Sys2Proof.Machine
end

