-- ==== Sys2Proof/Machine/CaptureEvents.lean ====
section
/-! DEFINITION. The meanings of the Trigger Unit's and the Frame Tracker's own steps: ENTRY_ISSUE, STROBE_PULSE_END, GROUP_DONE,
TRIGGERS_ENDED, REWIND_HOLD_CLEAR and CLOSE_AT_STOP. A step whose condition does not hold changes nothing (assumption 1). -/

namespace Sys2Proof.Machine

/-- ENTRY_ISSUE (R31, R33): a later entry of the group in progress is issued k spacings after the group's tick. -/
def execEntryIssue (s : State) : Host.Outcome State Fault Refusal :=
  s.whenPowered fun s =>
    match s.tru.group with
    | none => s
    | some g =>
      if g.issued < g.entries.length then (((s.advanceTo (s.groupTime g g.issued)).issueNext).progressed).settleFrom s else s

/-- STROBE_PULSE_END (R32): one exposure after the issue the outputs go low. -/
def execStrobePulseEnd (s : State) : Host.Outcome State Fault Refusal :=
  s.whenPowered fun s =>
    match s.tru.pulseEnd with
    | none => s
    | some t =>
      let s1 := s.advanceTo t
      State.settle { s1 with tru := { s1.tru with strobes := 0, pulseEnd := none } } false

/-- GROUP_DONE (R31): K spacings after the group's tick, when every entry has been issued. -/
def execGroupDone (s : State) : Host.Outcome State Fault Refusal :=
  s.whenPowered fun s =>
    match s.tru.group with
    | none => s
    | some g =>
      if g.entries.length ≤ g.issued then
        let s1 := s.advanceTo (s.groupTime g g.entries.length)
        State.settle { s1 with tru := s1.tru.finishGroup g } false
      else s

/-- TRIGGERS_ENDED (R40, R81): in DRAINING, once no group is in progress. -/
def execTriggersEnded (s : State) : Host.Outcome State Fault Refusal :=
  s.whenPowered fun s =>
    if s.rnc.runState = .draining ∧ s.tru.group = none then
      State.settle { s with frt := { s.frt with triggersEnded := true } } false
    else s

/-- REWIND_HOLD_CLEAR (R80): no group in progress and every enabled lane settled. -/
def execRewindHoldClear (s : State) : Host.Outcome State Fault Refusal :=
  s.whenPowered fun s =>
    if s.frt.rewindHold ∧ s.tru.group = none ∧ s.allSettled then
      State.settle { s with frt := { s.frt with rewindHold := false } } false
    else s

/-- CLOSE_AT_STOP (R82): once triggers have ended and every enabled lane is settled. -/
def execCloseAtStop (s : State) : Host.Outcome State Fault Refusal :=
  s.whenPowered fun s =>
    if s.rnc.runState = .draining ∧ s.frt.triggersEnded ∧ s.allSettled ∧ ¬ s.rnc.closeAtStopMade then
      s.stopCloseAll.settle false
    else s

end Sys2Proof.Machine
end

