-- ==== Sys2Proof/Machine/PortEvents.lean ====
section
/-! DEFINITION. The meanings of the host ports' steps: link reports, received packets, packets sent, staged records, rest and wake
(07, 08, 09). -/

namespace Sys2Proof.Machine

/-! ## Link loss (R148, R150, R154) -/

/-- A route's records at the loss of its port's link: OPENED records are ABORTED, counted and reported; PENDING records keep their
state, without a plan, a formed FRAME_OPEN or a revoke flag (R148, R149). -/
def State.abortRoute (s : State) (p : Port) (r : Fin 8) : State :=
  let opened := (s.dle.records.get r).filter fun d => d.state = .opened
  let s1 := s.setRecords r fun ds => ds.map fun d =>
    if d.state = .pending then { d with plan := none, opening := none, revoke := false } else d
  opened.foldl
    (fun s d => (s.countPort p fun c => { c with abortedFrames := countUp 1 c.abortedFrames }).finalize r d .aborted) s1

/-- The port's reread queue is dropped, oldest entry first (R148). -/
def State.dropRereads (s : State) (p : Port) : State :=
  let queue := s.dle.rereads.get p
  queue.foldl (fun s e => s.rereadEnded e.slot) (s.setRereads p fun _ => [])

/-- A port's own state at a link loss: what is in transmission is cut, the notice queue is emptied, the timers stop (R154). -/
def HostPort.cut (h : HostPort) : HostPort :=
  { h with link := .down, tx := none, tile := none, notices := [], idleTimer := none, wakeTimer := none, wakeOwed := false }

/-- A link-loss report of a port that is not DOWN (R148, R150, R154). -/
def State.portLost (s : State) (p : Port) : State :=
  let s1 := (s.setPort p HostPort.cut).raise .portDown (detail := portCode p)
  let s2 := (s1.routesOf p).foldl (fun s r => s.abortRoute p r) s1
  let s3 := s2.dropRereads p
  if s3.rnc.runState = .draining then s3.skipPending p else s3

/-! ## Receiving (R155, R156) -/

/-- LINK_ERRORS is raised for a port. -/
def State.linkError (s : State) (p : Port) : State := s.raise .linkErrors (detail := portCode p)

/-- A packet that arrives on a port: discarded for its header or a full buffer, or placed with its judged payload check (R155,
R156). -/
def State.receiveHost (s : State) (p : Port) (bytes : List Byte) : State :=
  match readHeader bytes with
  | none => (s.countPort p fun c => { c with headerErrors := countUp 1 c.headerErrors }).linkError p
  | some h =>
    if Config.inboundLimit ≤ (s.ports.get p).inbound.length then
      (s.countPort p fun c => { c with commandOverruns := countUp 1 c.commandOverruns }).raise .cmdOverrun (detail := portCode p)
    else
      let check := judgePayload h bytes
      let k : InPacket :=
        { kind := h.kind, stream := h.stream, tag := h.tag, length := h.length,
          payload := (payloadOf h bytes).take Config.inboundPayload, check := check }
      let s1 := s.setPort p fun y => { y with inbound := y.inbound ++ [k] }
      if check = .fail then (s1.countPort p fun c => { c with payloadErrors := countUp 1 c.payloadErrors }).linkError p else s1

/-! ## Packets sent -/

/-- The cursor of a record after a segment of its tile with a number of rows: on to the next segment, or, after the last, to the
next tile of the order of R129 (R133). -/
def Delivery.afterSegment (d : Delivery) (tiles rows : Nat) (last : Bool) : Delivery :=
  if last then
    { d with
      tileOpen := false, span := none,
      cursor :=
        if d.cursor.index + 1 < tiles then { band := d.cursor.band, index := d.cursor.index + 1, row := 0 }
        else { band := d.cursor.band + 1, index := 0, row := 0 } }
  else { d with tileOpen := true, cursor := { d.cursor with row := d.cursor.row + rows } }

/-- How many tiles a band of a record's plan has. -/
def State.tilesPerBand (s : State) (d : Delivery) : Nat :=
  match d.plan with
  | none => 0
  | some plan => (plan.bandTiles (s.slot d.slot).geometry).length

/-- The tile in progress of a port becomes none. -/
def State.endTile (s : State) (p : Port) : State := s.setPort p fun h => { h with tile := none }

/-- A route's tile segment has been transmitted (R133, R134); a tile whose record a command reset has removed is abandoned now (R167). -/
def State.segmentSent (s : State) (p : Port) (r : Fin 8) (alloc rows : Nat) (last : Bool) : State :=
  let s1 := s.setRecord r alloc fun d => d.afterSegment (s.tilesPerBand d) rows last
  if last ∨ s.recordOf r alloc = none then s1.endTile p else s1

/-- The head of a reread queue after a segment of its tile (R147); a tile whose entry a command reset has removed is abandoned now (R151,
R167). -/
def State.rereadSent (s : State) (p : Port) (alloc rows : Nat) (last : Bool) : State :=
  match s.dle.rereads.get p with
  | [] => s.endTile p
  | e :: es =>
    if e.alloc ≠ alloc then s.endTile p
    else if last then ((s.setRereads p fun _ => es).endTile p).rereadEnded e.slot
    else s.setRereads p fun _ => { e with next := e.next + rows, isOpen := true } :: es

/-! ## Meanings -/

/-- PORT_LINK_UP (R149, R153): a DOWN port becomes UP, and its reread queue starts empty. The entries that commands taken while it was
DOWN have queued (R154) are dropped as at a link loss (R148; assumption 36). -/
def execPortLinkUp (p : Port) (s : State) : Host.Outcome State Fault Refusal :=
  s.whenPowered fun s =>
    if (s.ports.get p).link = .down then ((s.dropRereads p).setPort p fun h => { h with link := .up }).settle false else s

/-- PORT_LINK_LOSS (R148, R150, R154): changes nothing on a port that is DOWN. -/
def execPortLinkLoss (p : Port) (s : State) : Host.Outcome State Fault Refusal :=
  s.whenPowered fun s => if (s.ports.get p).link = .down then s else (s.portLost p).settle false

/-- HOST_PACKET_RECEIVED (R155, R156): a DOWN port receives nothing (R153). -/
def execHostPacketReceived (p : Port) (bytes : List Byte) (s : State) : Host.Outcome State Fault Refusal :=
  s.whenPowered fun s => if (s.ports.get p).link = .down then s else (s.receiveHost p bytes).settle false

/-- REPLY_SENT (R158): the place of the reply is freed; the reply of a RESET makes the command reset due (R176). -/
def execReplySent (p : Port) (s : State) : Host.Outcome State Fault Refusal :=
  s.whenPowered fun s =>
    match (s.ports.get p).tx with
    | some { source := .reply, packet := k } =>
      let s1 := (s.finishTx p k).setPort p fun h => { h with replies := h.replies.drop 1 }
      let due := p = .a ∧ s.rnc.resetPending ∧ s1.ports.a.replies = []
      State.settle (if due then { s1 with rnc := { s1.rnc with resetDue := true } } else s1) false
    | _ => s

/-- NOTICE_SENT (R158, R182). -/
def execNoticeSent (s : State) : Host.Outcome State Fault Refusal :=
  s.whenPowered fun s =>
    match s.ports.a.tx with
    | some { source := .notice, packet := k } =>
      ((s.finishTx .a k).setPort .a fun h => { h with notices := h.notices.drop 1 }).settle false
    | _ => s

/-- FRAME_OPEN_SENT (R130): the record becomes OPENED. -/
def execFrameOpenSent (p : Port) (s : State) : Host.Outcome State Fault Refusal :=
  s.whenPowered fun s =>
    match (s.ports.get p).tx with
    | some { source := .frameOpen r alloc, packet := k } =>
      ((s.finishTx p k).setRecord r alloc fun d => { d with state := .opened, opening := none }).settle false
    | _ => s

/-- TILE_SEGMENT_SENT (R133). -/
def execTileSegmentSent (p : Port) (s : State) : Host.Outcome State Fault Refusal :=
  s.whenPowered fun s =>
    match (s.ports.get p).tx with
    | some { source := .segment r alloc rows last, packet := k } => ((s.finishTx p k).segmentSent p r alloc rows last).settle false
    | _ => s

/-- TILE_ABORT_SENT (R145): tile open becomes no. -/
def execTileAbortSent (p : Port) (s : State) : Host.Outcome State Fault Refusal :=
  s.whenPowered fun s =>
    match (s.ports.get p).tx with
    | some { source := .tileAbort r alloc, packet := k } =>
      let s1 := (s.finishTx p k).setRecord r alloc fun d => { d with tileOpen := false, span := none }
      (s1.endTile p).settle false
    | _ => s

/-- FRAME_END_SENT (R132, R145): the record becomes DONE or REVOKED and is reported. -/
def execFrameEndSent (p : Port) (s : State) : Host.Outcome State Fault Refusal :=
  s.whenPowered fun s =>
    match (s.ports.get p).tx with
    | some { source := .frameEnd r alloc revoked, packet := k } =>
      let s1 := s.finishTx p k
      (match s1.recordOf r alloc with
        | some d => s1.finalize r d (if revoked then .revoked else .done)
        | none => s1).settle false
    | _ => s

/-- REREAD_SEGMENT_SENT (R147). -/
def execRereadSegmentSent (p : Port) (s : State) : Host.Outcome State Fault Refusal :=
  s.whenPowered fun s =>
    match (s.ports.get p).tx with
    | some { source := .reread alloc rows last, packet := k } =>
      ((s.finishTx p k).rereadSent p alloc rows last).settle false
    | _ => s

/-- STAGED_PORT_RECORD (R162): once the tile in progress has ended or been cut, the staged record takes effect and its SET_PORT is
answered. -/
def execStagedPortRecord (p : Port) (s : State) : Host.Outcome State Fault Refusal :=
  s.whenPowered fun s =>
    match (s.ports.get p).staged, (s.ports.get p).tile with
    | some r, none => (((s.portRecordInForce p r).answerHeld p .a).answerHeld p .b).settle false
    | _, _ => s

/-- IDLE_TIMER_EXPIRY (R163): the idle timer reaches the rest delay, and State.settle judges the other rest conditions. -/
def execIdleTimerExpiry (p : Port) (s : State) : Host.Outcome State Fault Refusal :=
  s.whenPowered fun s =>
    let h := s.ports.get p
    match h.idleTimer with
    | none => s
    | some t => (s.advanceTo (t + h.record.restDelay * Config.unitsPerUs)).settle false

/-- REST_SENT (R163): RESTING at the REST's last byte, or WAKING if a wake cause came up meanwhile, whether or not it still holds, if
work is present, or if rest enable is clear (assumption 15). No wake-lead test is made here: R164 makes it at ticks and at changes of
lane progress, and State.wake keeps the outcome (assumption 18). -/
def execRestSent (p : Port) (s : State) : Host.Outcome State Fault Refusal :=
  s.whenPowered fun s =>
    match (s.ports.get p).tx with
    | some { source := .rest, packet := k } =>
      let s1 := (s.finishTx p k).setPort p fun h => { h with link := .resting, wakeOwed := false }
      let wakes := (s.ports.get p).wakeOwed ∨ s1.workPresent p ∨ ¬ (s1.ports.get p).record.restEnable
      (if wakes then s1.startWake p else s1).settle false
    | _ => s

/-- WAKE_TIMER_EXPIRY (R153, R164): the wake timer reaches 20 µs and the port becomes UP. -/
def execWakeTimerExpiry (p : Port) (s : State) : Host.Outcome State Fault Refusal :=
  s.whenPowered fun s =>
    match (s.ports.get p).link, (s.ports.get p).wakeTimer with
    | .waking, some t =>
      ((s.advanceTo (t + Config.wakeUs * Config.unitsPerUs)).setPort p fun h =>
        { h with link := .up, wakeTimer := none }).settle false
    | _, _ => s

end Sys2Proof.Machine
end

