-- ==== Sys2Proof/Machine/Dispatch.lean ====
section
/-! DEFINITION. The dispatch of a command to its meaning: one arm per command. -/

namespace Sys2Proof.Machine

/-- The effect of a command on everything but the queue. -/
def exec (i : Instr) (s : State) : Host.Outcome State Fault Refusal :=
  match i with
  | .identify p => Sys2Proof.Machine.execIdentify p s
  | .getStatus p => Sys2Proof.Machine.execGetStatus p s
  | .getStats p => Sys2Proof.Machine.execGetStats p s
  | .getConfig p => Sys2Proof.Machine.execGetConfig p s
  | .setScale p => Sys2Proof.Machine.execSetScale p s
  | .setPhases p => Sys2Proof.Machine.execSetPhases p s
  | .setLane p => Sys2Proof.Machine.execSetLane p s
  | .setFraming p => Sys2Proof.Machine.execSetFraming p s
  | .setLayout p => Sys2Proof.Machine.execSetLayout p s
  | .setStore p => Sys2Proof.Machine.execSetStore p s
  | .setRoute p => Sys2Proof.Machine.execSetRoute p s
  | .setPort p => Sys2Proof.Machine.execSetPort p s
  | .setNotices p => Sys2Proof.Machine.execSetNotices p s
  | .runStart p => Sys2Proof.Machine.execRunStart p s
  | .runStop p => Sys2Proof.Machine.execRunStop p s
  | .reset p => Sys2Proof.Machine.execReset p s
  | .pause p => Sys2Proof.Machine.execPause p s
  | .resume p => Sys2Proof.Machine.execResume p s
  | .revoke p => Sys2Proof.Machine.execRevoke p s
  | .retain p => Sys2Proof.Machine.execRetain p s
  | .release p => Sys2Proof.Machine.execRelease p s
  | .reread p => Sys2Proof.Machine.execReread p s
  | .setLead p => Sys2Proof.Machine.execSetLead p s
  | .clearNotices p => Sys2Proof.Machine.execClearNotices p s
  | .setLoop p => Sys2Proof.Machine.execSetLoop p s
  | .unknownKind p => Sys2Proof.Machine.execUnknownKind p s
  | .commandReset => Sys2Proof.Machine.execCommandReset s
  | .powerUp encA encB => Sys2Proof.Machine.execPowerUp encA encB s
  | .count line => Sys2Proof.Machine.execCount line s
  | .encoderError => Sys2Proof.Machine.execEncoderError s
  | .indexEdge rising => Sys2Proof.Machine.execIndexEdge rising s
  | .stall => Sys2Proof.Machine.execStall s
  | .stallCloseExpiry => Sys2Proof.Machine.execStallCloseExpiry s
  | .entryIssue => Sys2Proof.Machine.execEntryIssue s
  | .strobePulseEnd => Sys2Proof.Machine.execStrobePulseEnd s
  | .groupDone => Sys2Proof.Machine.execGroupDone s
  | .triggersEnded => Sys2Proof.Machine.execTriggersEnded s
  | .laneLinkUp lane => Sys2Proof.Machine.execLaneLinkUp lane s
  | .laneLinkLoss lane => Sys2Proof.Machine.execLaneLinkLoss lane s
  | .lanePacketReceived lane bytes => Sys2Proof.Machine.execLanePacketReceived lane bytes s
  | .lineTimeout lane => Sys2Proof.Machine.execLineTimeout lane s
  | .placementComplete lane => Sys2Proof.Machine.execPlacementComplete lane s
  | .rewindHoldClear => Sys2Proof.Machine.execRewindHoldClear s
  | .closeAtStop => Sys2Proof.Machine.execCloseAtStop s
  | .endOfDraining => Sys2Proof.Machine.execEndOfDraining s
  | .portLinkUp p => Sys2Proof.Machine.execPortLinkUp p s
  | .portLinkLoss p => Sys2Proof.Machine.execPortLinkLoss p s
  | .hostPacketReceived p bytes => Sys2Proof.Machine.execHostPacketReceived p bytes s
  | .replySent p => Sys2Proof.Machine.execReplySent p s
  | .noticeSent => Sys2Proof.Machine.execNoticeSent s
  | .frameOpenSent p => Sys2Proof.Machine.execFrameOpenSent p s
  | .tileSegmentSent p => Sys2Proof.Machine.execTileSegmentSent p s
  | .tileAbortSent p => Sys2Proof.Machine.execTileAbortSent p s
  | .frameEndSent p => Sys2Proof.Machine.execFrameEndSent p s
  | .rereadSegmentSent p => Sys2Proof.Machine.execRereadSegmentSent p s
  | .stagedPortRecord p => Sys2Proof.Machine.execStagedPortRecord p s
  | .idleTimerExpiry p => Sys2Proof.Machine.execIdleTimerExpiry p s
  | .restSent p => Sys2Proof.Machine.execRestSent p s
  | .wakeTimerExpiry p => Sys2Proof.Machine.execWakeTimerExpiry p s
  | .pwrOkLow => Sys2Proof.Machine.execPwrOkLow s

end Sys2Proof.Machine
end

