-- ==== Sys2Proof/Machine/Step.lean ====
section
/-! DEFINITION. One step of the part: the command at the front of the queue, or the passing of time; and the placing of a command at
the front of the queue. -/

namespace Sys2Proof.Machine

/-- The state with the command a word spells at the front of its queue; unchanged where the word spells none (assumption 4). -/
def State.withFetchWord (s : State) (nbits w : Nat) : State :=
  match decodeTableWord nbits w with
  | some c => { s with pending := c :: s.pending }
  | none => s

/-- With no command waiting, one 10 ns unit of the interval timebase passes and nothing else changes (assumption 5). -/
def State.idle (s : State) : State := { s with now := s.now + 1 }

/-- One step: the command at the front of the queue is taken and has its effect on the state with the queue's rest. -/
def step (s : State) : Host.Outcome State Fault Refusal :=
  match s.pending with
  | c :: rest => exec c { s with pending := rest }
  | [] => .next s.idle

end Sys2Proof.Machine
end

