-- ==== Sys2Proof/Safety.lean ====
section
/-! DEFINITION. The terms the claims are stated in: what a command packet that is taken looks like, the parts of the state a step may
leave alone, and the invariants that the part keeps. -/

namespace Sys2Proof

/-- The port and the command code of a command on a packet; none for every other step. -/
def Instr.command : Instr → Option (Port × Nat)
  | .identify p => some (p, 0x01)
  | .getStatus p => some (p, 0x02)
  | .getStats p => some (p, 0x03)
  | .getConfig p => some (p, 0x04)
  | .setScale p => some (p, 0x10)
  | .setPhases p => some (p, 0x11)
  | .setLane p => some (p, 0x12)
  | .setFraming p => some (p, 0x13)
  | .setLayout p => some (p, 0x14)
  | .setStore p => some (p, 0x15)
  | .setRoute p => some (p, 0x16)
  | .setPort p => some (p, 0x17)
  | .setNotices p => some (p, 0x18)
  | .runStart p => some (p, 0x20)
  | .runStop p => some (p, 0x21)
  | .reset p => some (p, 0x22)
  | .pause p => some (p, 0x30)
  | .resume p => some (p, 0x31)
  | .revoke p => some (p, 0x32)
  | .retain p => some (p, 0x33)
  | .release p => some (p, 0x34)
  | .reread p => some (p, 0x35)
  | .setLead p => some (p, 0x36)
  | .clearNotices p => some (p, 0x37)
  | .setLoop p => some (p, 0x38)
  | .unknownKind _ | .commandReset | .powerUp _ _ | .count _ | .encoderError | .indexEdge _ | .stall | .stallCloseExpiry
  | .entryIssue | .strobePulseEnd | .groupDone | .triggersEnded | .laneLinkUp _ | .laneLinkLoss _ | .lanePacketReceived _ _
  | .lineTimeout _ | .placementComplete _ | .rewindHoldClear | .closeAtStop | .endOfDraining | .portLinkUp _ | .portLinkLoss _
  | .hostPacketReceived _ _ | .replySent _ | .noticeSent | .frameOpenSent _ | .tileSegmentSent _ | .tileAbortSent _
  | .frameEndSent _ | .rereadSegmentSent _ | .stagedPortRecord _ | .idleTimerExpiry _ | .restSent _ | .wakeTimerExpiry _
  | .pwrOkLow => none

/-- The three steps that take reset values (R176, R177). -/
def Instr.isReset : Instr → Bool
  | .commandReset | .powerUp _ _ | .pwrOkLow => true
  | _ => false

namespace Machine

/-! ## Taking a command packet (R157, R168, R169) -/

/-- The command codes of 10.2. -/
def commandCodes : List Nat :=
  [0x01, 0x02, 0x03, 0x04, 0x10, 0x11, 0x12, 0x13, 0x14, 0x15, 0x16, 0x17, 0x18, 0x20, 0x21, 0x22, 0x30, 0x31, 0x32, 0x33, 0x34,
    0x35, 0x36, 0x37, 0x38]

/-- The codes that are DENIED from port B (R157, 10.2). -/
def deniedFromB : List Nat := [0x10, 0x11, 0x12, 0x13, 0x14, 0x15, 0x16, 0x17, 0x18, 0x20, 0x21, 0x22, 0x38]

/-- The codes accepted in CONFIG alone (10.2). -/
def configCodes : List Nat := [0x10, 0x11, 0x12, 0x13, 0x14, 0x15, 0x16, 0x20]

/-- The Run Controller may take packet c from port p, leaving rest in the inbound buffer: the part is powered, c is the oldest
packet, a reply place is free, no command of the port is in hand and no reset pending holds the port (R157, R168, R176). -/
abbrev State.mayTake (s : State) (p : Port) (c : InPacket) (rest : List InPacket) : Prop :=
  s.pwrOk = true ∧ (s.ports.get p).inbound = c :: rest ∧ (s.ports.get p).replies.length < Config.replyLimit
    ∧ s.rnc.inHand.get p = none ∧ ¬ (p = .a ∧ s.rnc.resetPending = true)

/-- A packet that passes checks 1 to 3 of R169 as the command of a code with a payload length. -/
abbrev InPacket.passes (c : InPacket) (code length : Nat) : Prop := c.check ≠ .fail ∧ c.kind = code ∧ c.length = length

/-- The state once a packet has left the inbound buffer of its port. -/
def State.took (s : State) (p : Port) (rest : List InPacket) : State := s.setPort p fun h => { h with inbound := rest }

/-- What follows an accepted command whose effect has made the state t: the reply OK with a record in the place of its port, and
then the ports' own choices (R159, R163, R164, R170). -/
def State.answered (t : State) (p : Port) (c : InPacket) (record : List Byte) : State := (t.reply p c .ok record).settle false

/-- What follows a refused command: its reply is its only effect (R169), and then the ports' own choices. -/
def State.refuses (t : State) (p : Port) (c : InPacket) (result : Result) : State := (t.reply p c result []).settle false

/-- What follows a command that is held in hand: a place reserved, the packet in hand (R157, R162, R168). -/
def State.holds (t : State) (p : Port) (c : InPacket) : State :=
  let s1 := t.setPort p fun h => { h with replies := h.replies ++ [none] }
  State.settle { s1 with rnc := { s1.rnc with inHand := s1.rnc.inHand.set p (some c) } } false

/-- The bytes of a record from an offset on. -/
def bytesAt (r : List Byte) (offset n : Nat) : List Byte := (r.drop offset).take n

/-! ## Frames -/

/-- The same capture state: position, triggers, lanes, framing, slots, line store and layout. -/
abbrev State.sameCapture (s t : State) : Prop :=
  t.ptk = s.ptk ∧ t.tru = s.tru ∧ t.lanes = s.lanes ∧ t.frt = s.frt ∧ t.slm = s.slm ∧ t.layout = s.layout

/-- The same run state, notices and counters, clock and waiting commands. -/
abbrev State.sameControl (s t : State) : Prop :=
  t.rnc = s.rnc ∧ t.ntu = s.ntu ∧ t.now = s.now ∧ t.pwrOk = s.pwrOk ∧ t.pending = s.pending

/-- A delivery record but for its plan and FRAME_OPEN, which are formed when the FRAME_OPEN becomes sendable (R130), and the span of its
open tile, which is fixed as a packet begins (R131). -/
def Delivery.core (d : Delivery) : Nat × Nat × RecordState × Cursor × Bool × Bool :=
  (d.slot, d.alloc, d.state, d.cursor, d.tileOpen, d.revoke)

/-- A reread entry but for its rows per segment, which are fixed as its first packet begins (R147). -/
def Reread.core (e : Reread) : Reread := { e with rowsPerSegment := none }

/-- The same delivery state, but for what is fixed as a packet begins. -/
abbrev State.sameDelivery (s t : State) : Prop :=
  t.dle.routes = s.dle.routes ∧ t.dle.paused = s.dle.paused
    ∧ (∀ r, (t.dle.records.get r).map Delivery.core = (s.dle.records.get r).map Delivery.core)
    ∧ t.dle.rereads.a.map Reread.core = s.dle.rereads.a.map Reread.core
    ∧ t.dle.rereads.b.map Reread.core = s.dle.rereads.b.map Reread.core

/-- The same queues and records at a host port; the transmitter, the tile in progress, the round-robin pointer, the timers and the
rest and wake states may move. -/
abbrev HostPort.sameQueues (h k : HostPort) : Prop :=
  k.record = h.record ∧ k.staged = h.staged ∧ k.inbound = h.inbound ∧ k.replies = h.replies ∧ k.notices = h.notices

/-- The setup records of R180 but for those that a run may change: the port records, the notice record, the lead columns and the
loop bounds. -/
abbrev State.sameSetup (s t : State) : Prop :=
  t.ptk.scale = s.ptk.scale ∧ t.tru.table = s.tru.table ∧ t.tru.spacing = s.tru.spacing
    ∧ (∀ l, (t.lanes.get l).record = (s.lanes.get l).record) ∧ t.frt.record = s.frt.record ∧ t.layout = s.layout
    ∧ t.slm.record = s.slm.record ∧ ∀ r, { t.dle.routes.get r with lead := 0 } = { s.dle.routes.get r with lead := 0 }

/-! ## Conditions the rules name -/

/-- The five consistency checks of RUN_START (R172): an enabled lane; every enabled lane within its side, and no two of one side sharing
a column; the planes in use holding the plane set; every enabled route's port, by its staged record if it has one, taking a row of a
full tile; and a row capacity of at least 16. -/
def State.setupConsistent (s : State) : Prop :=
  (∃ l, (s.lanes.get l).record.enable = true)
    ∧ (∀ l, (s.lanes.get l).record.enable = true →
        (s.lanes.get l).record.lastColumn < s.layout.width (s.lanes.get l).record.side)
    ∧ (∀ l m, l ≠ m → (s.lanes.get l).record.enable = true → (s.lanes.get m).record.enable = true →
        (s.lanes.get l).record.side = (s.lanes.get m).record.side →
        (s.lanes.get l).record.lastColumn < (s.lanes.get m).record.column
          ∨ (s.lanes.get m).record.lastColumn < (s.lanes.get l).record.column)
    ∧ (∀ k : Fin 4, s.tru.planeSet.getLsbD k.val = true → s.layout.planes.getLsbD k.val = true)
    ∧ (∀ r, (s.dle.routes.get r).enable = true →
        s.layout.tileWidth + 16 ≤
          ((s.ports.get (s.dle.routes.get r).port).staged.getD (s.ports.get (s.dle.routes.get r).port).record).maxSegment)
    ∧ 16 ≤ s.rowCapacity

/-- Every enabled lane is settled: an empty queue and no placement in progress (R60). -/
abbrev State.lanesSettled (s : State) : Prop :=
  ∀ l, (s.lanes.get l).record.enable = true → (s.lanes.get l).queue = [] ∧ (s.lanes.get l).placements = []

/-- A REVOKE packet from a port acts on a route: its mask names the route, and from port B the route is port B's (R143, R157). -/
abbrev State.revokes (s : State) (p : Port) (c : InPacket) (r : Fin 8) : Prop :=
  (byteAt c.payload 4).testBit r.val = true ∧ (p = .a ∨ (s.dle.routes.get r).port = .b)

/-- The open list with its newest frame, if unbounded, bounded at a start or at its row capacity, whichever comes first (R68). -/
def Frt.boundedAt (f : Frt) (start : Int) : List OpenFrame :=
  match f.openList.getLast? with
  | none => []
  | some x =>
    if x.stop = none then
      f.openList.dropLast ++
        [{ x with
          stop := some (min start (x.start + (f.capacity : Int))),
          truncated := x.truncated || decide (x.start + (f.capacity : Int) < start) }]
    else f.openList

/-! ## Field ranges of the setup records, by their bytes in the payload (12.3, R188) -/

/-- SET_SCALE (R1). -/
abbrev scaleInRange (bs : List Byte) : Prop :=
  (100 ≤ u32 bs 0 ∧ u32 bs 0 ≤ 200000) ∧ (10000 ≤ u32 bs 4 ∧ u32 bs 4 ≤ 2000000) ∧ byteAt bs 8 ≤ 3 ∧ byteAt bs 9 = 0
    ∧ (1 ≤ u16 bs 10 ∧ u16 bs 10 ≤ 10000) ∧ u16 bs 12 ≤ 600

/-- SET_PHASES (R24): eight entries, loop bounds and spacing. -/
abbrev phasesInRange (bs : List Byte) : Prop :=
  (∀ i < 8, byteAt bs (4 * i) % 128 ≤ 3 ∧ byteAt bs (4 * i + 1) ≤ 63 ∧ 1 ≤ u16 bs (4 * i + 2) ∧ u16 bs (4 * i + 2) ≤ 2000)
    ∧ byteAt bs 32 ≤ byteAt bs 33 ∧ byteAt bs 33 ≤ 7 ∧ 20 ≤ u16 bs 34 ∧ u16 bs 34 ≤ 10000

/-- SET_LANE (R45): the lane, the flags, D, N, K_f, K_l, X, the unused byte and the line timeout. -/
abbrev laneInRange (bs : List Byte) : Prop :=
  byteAt bs 0 ≤ 7 ∧ byteAt bs 1 ≤ 7 ∧ u16 bs 2 ≤ 4095 ∧ (256 ≤ u16 bs 4 ∧ u16 bs 4 ≤ 16384) ∧ u16 bs 6 + 2 ≤ u16 bs 4
    ∧ (u16 bs 6 ≤ u16 bs 8 ∧ u16 bs 8 + 1 ≤ u16 bs 4) ∧ u16 bs 10 ≤ 32767 ∧ byteAt bs 13 = 0
    ∧ (10 ≤ u16 bs 14 ∧ u16 bs 14 ≤ 50000)

/-- SET_FRAMING (R65). -/
abbrev framingInRange (bs : List Byte) : Prop :=
  byteAt bs 0 ≤ 1 ∧ byteAt bs 1 = 0 ∧ 16 ≤ u16 bs 2 ∧ u16 bs 4 ≤ 4095

/-- SET_LAYOUT (R107). -/
abbrev layoutInRange (bs : List Byte) : Prop :=
  (64 ≤ u16 bs 0 ∧ u16 bs 0 ≤ 32768) ∧ (64 ≤ u16 bs 2 ∧ u16 bs 2 ≤ 32768)
    ∧ (256 ≤ u16 bs 4 ∧ u16 bs 4 ≤ 16384 ∧ u16 bs 4 % 64 = 0) ∧ (8 ≤ u16 bs 6 ∧ u16 bs 6 ≤ 4096)
    ∧ (1 ≤ byteAt bs 8 ∧ byteAt bs 8 ≤ 15) ∧ byteAt bs 9 = 0

/-- SET_STORE (R86). -/
abbrev storeInRange (bs : List Byte) : Prop := (2 ≤ byteAt bs 0 ∧ byteAt bs 0 ≤ 32) ∧ byteAt bs 1 ≤ 1

/-- SET_ROUTE (R122): the route, the flags, the column range, stride, phase and lead column; every layer mask is in range. -/
abbrev routeInRange (bs : List Byte) : Prop :=
  byteAt bs 0 ≤ 7 ∧ byteAt bs 1 ≤ 7 ∧ (byteAt bs 3 ≤ byteAt bs 4 ∧ byteAt bs 4 ≤ 127)
    ∧ (1 ≤ byteAt bs 5 ∧ byteAt bs 5 ≤ 16) ∧ byteAt bs 6 < byteAt bs 5 ∧ byteAt bs 7 ≤ 127

/-- SET_PORT (R161). -/
abbrev portInRange (bs : List Byte) : Prop :=
  byteAt bs 0 ≤ 1 ∧ byteAt bs 1 ≤ 1 ∧ 1024 ≤ u16 bs 2 ∧ (10 ≤ u32 bs 4 ∧ u32 bs 4 ≤ 1000000) ∧ u16 bs 8 ≤ 4095

/-! ## Marks and closes -/

/-- The event that leads from s to t marks a row FILLED for a cause (R37, R58, R100, R102): if an OPEN frame of s keeps the position and
its row is UNRESOLVED for the lane and plane, the row is FILLED in t for as long as the slot holds the frame, and while the frame is
OPEN a fill run of the cause covers it, unless the fill-run list has overflowed. -/
def State.fills (s t : State) (l : Fin 8) (k : Fin 4) (p : Int) (c : FillCause) : Prop :=
  ∀ i row, s.keeper p = some i → row = (p - (s.slot i).start).toNat → (s.slot i).markOf l k row = .unresolved →
    (t.slot i).state ≠ .free → (t.slot i).alloc = (s.slot i).alloc →
      (t.slot i).markOf l k row = .filled
        ∧ ((t.slot i).state = .opened →
            (t.slot i).overflow = true
              ∨ ∃ e ∈ (t.slot i).fillRuns, e.lane = l ∧ e.plane = k ∧ e.cause = c ∧ e.first ≤ row ∧ row < e.first + e.count)

/-- The event that leads from s to t sets no mark of a lane: in every slot it does not free the lane's marks stand. -/
def State.keepsMarks (s t : State) (l : Fin 8) : Prop :=
  ∀ i k row, (t.slot i).state ≠ .free → (t.slot i).markOf l k row = (s.slot i).markOf l k row

/-- An entry issued for a tick in the event that leads from s to t is offered to every lane (R33, R34, R35, R37, R50): an ACTIVE or REJOIN
lane with fewer than 64 records takes a trigger record and sends a TRIGGER, a lane in REJOIN with the mark REJOIN at t − D; a full one is
withheld with the mark BEHIND; a DOWN one takes the mark LANE_DOWN alone; and a READY or DISABLED one nothing. -/
def State.offersEntry (s t : State) (tick : Int) (e : Fin 8) : Prop :=
  ∀ l, let n := s.lanes.get l
    let plane := (s.tru.table.get e).plane
    let position := tick - (n.record.offset : Int)
    ((n.state = .active ∨ n.state = .rejoin) → n.queue.length < 64 →
        t.lanes.get l = { n with
          queue := n.queue ++
            [{ tag := n.nextTag, tick := tick, entry := e, plane := plane, deadline := t.now + n.record.timeoutUs * 100,
               rejoin := decide (n.state = .rejoin) }],
          nextTag := (n.nextTag + 1) % 65536,
          lastTrigger := some { kind := 0x40, stream := e.val, tag := n.nextTag, payload := le 4 (s.tru.table.get e).exposure } }
          ∧ (n.state = .active → s.keepsMarks t l) ∧ (n.state = .rejoin → s.fills t l plane position .rejoin))
      ∧ ((n.state = .active ∨ n.state = .rejoin) → 64 ≤ n.queue.length →
        t.lanes.get l = n ∧ maskHas t.ntu.pending .withheld = true
          ∧ (t.ntu.counters.lanes.get l).withheld = min 4294967295 ((s.ntu.counters.lanes.get l).withheld + 1)
          ∧ s.fills t l plane position .behind)
      ∧ (n.state = .down → t.lanes.get l = n ∧ s.fills t l plane position .laneDown)
      ∧ (n.state = .disabled ∨ n.state = .ready → t.lanes.get l = n ∧ s.keepsMarks t l)

/-- What a close with a row count and a reason makes of a slot (R94, R95, R116): the row count and reason recorded, the fill runs clipped
to the rows kept, the degraded lanes those with a FILLED row among them, every band ready; CLOSED while a route or a reread is
outstanding, and otherwise HELD with its retain flag spent, or freed. -/
def Slot.closedAs (x : Slot) (rows : Nat) (reason : CloseReason) : Slot :=
  let y : Slot :=
    { x with
      state := .closed, rowCount := some rows, closeReason := some reason,
      fillRuns := (x.fillRuns.filter fun e => e.first < rows).map fun e => { e with count := min e.count (rows - e.first) },
      degraded := indices.filter fun l => x.marks.any fun m => m.lane = l ∧ m.mark = .filled ∧ m.row < rows,
      ready :=
        { closed := true, top := x.ready.top.map fun _ => x.geometry.bands rows,
          bottom := x.ready.bottom.map fun _ => x.geometry.bands rows } }
  if x.outstanding = [] ∧ x.pendingRereads = 0 then
    if x.retain then { y with state := .held, retain := false } else Slot.empty
  else y

/-- R is the short row count of an open frame under a high-water mark: the least of effective progress − S + 1 over the enabled lanes and,
for a bounded frame, E − S (R77). -/
def State.isShortRows (s : State) (high : Int) (f : OpenFrame) (r : Int) : Prop :=
  (∃ l, (s.lanes.get l).record.enable = true)
    ∧ (∀ l, (s.lanes.get l).record.enable = true → r ≤ s.effective high l - f.start + 1)
    ∧ (∀ e, f.stop = some e → r ≤ e - f.start)
    ∧ ((∃ l, (s.lanes.get l).record.enable = true ∧ r = s.effective high l - f.start + 1)
        ∨ ∃ e, f.stop = some e ∧ r = e - f.start)

/-- A short close of an open frame leads from s to t: its slot is closed with the short row count and the reason, or freed where that
count is not positive (R77, R96). -/
def State.shortCloses (s t : State) (reason : CloseReason) (f : OpenFrame) : Prop :=
  ∀ r, s.isShortRows s.ptk.high f r →
    (1 ≤ r → t.slot f.slot = (s.slot f.slot).closedAs r.toNat reason) ∧ (r ≤ 0 → t.slot f.slot = Slot.empty)

/-- Short closes with the row counts given are counted and raised in the event that leads from s to t (R77): one of at least 1 row is a
short close, with FRAME_SHORT, and any other a frame dropped EMPTY, with FRAME_DROPPED; no other counter of frames moves. -/
def State.countsShorts (s t : State) (rows : List Int) : Prop :=
  let kept := rows.countP fun r => 1 ≤ r
  let empty := rows.countP fun r => r < 1
  let c := s.ntu.counters.frames
  t.ntu.counters.frames = { c with
      short := if kept = 0 then c.short else min 4294967295 (c.short + kept),
      droppedEmpty := if empty = 0 then c.droppedEmpty else min 4294967295 (c.droppedEmpty + empty) }
    ∧ maskHas t.ntu.pending .frameShort = (maskHas s.ntu.pending .frameShort || decide (kept ≠ 0))
    ∧ maskHas t.ntu.pending .frameDropped = (maskHas s.ntu.pending .frameDropped || decide (empty ≠ 0))

/-- A slot once some of its routes have left its outstanding routes, those given being left, and a number of its pending rereads have ended
(R94, R99): CLOSED with nothing outstanding any more it is HELD with its retain flag spent, or freed; HELD with its last reread ended and
its release pending it is freed; otherwise it stays. -/
def Slot.released (x : Slot) (left : List (Fin 8)) (rereads : Nat) : Slot :=
  let y := { x with outstanding := left, pendingRereads := x.pendingRereads - rereads }
  if x.state = .closed ∧ left = [] ∧ x.pendingRereads = rereads ∧ (left ≠ x.outstanding ∨ 0 < rereads) then
    if x.retain then { y with state := .held, retain := false } else Slot.empty
  else if x.state = .held ∧ x.pendingRereads = rereads ∧ 0 < rereads ∧ x.releasePending then Slot.empty
  else y

/-- The geometry copied from the records in force (5.2, R90, R109): the side widths and tile size, the layers whose side has an enabled
lane and whose plane is in the plane set, in ascending order, and of each enabled lane its side, destination range and fill value. -/
def State.isGeometry (s : State) (g : Geometry) : Prop :=
  g.widthTop = s.layout.widthTop ∧ g.widthBottom = s.layout.widthBottom ∧ g.tileWidth = s.layout.tileWidth
    ∧ g.tileHeight = s.layout.tileHeight ∧ g.layers.Pairwise (· < ·)
    ∧ (∀ n, n ∈ g.layers ↔ n < 8 ∧ s.tru.planeSet.getLsbD (n % 4) = true
        ∧ ∃ l, (s.lanes.get l).record.enable = true ∧ ((s.lanes.get l).record.side = .top ↔ n < 4))
    ∧ (g.lanes.map GeoLane.lane).Pairwise (· < ·)
    ∧ ∀ y, y ∈ g.lanes ↔ (s.lanes.get y.lane).record.enable = true ∧ y.side = (s.lanes.get y.lane).record.side
        ∧ y.first = (s.lanes.get y.lane).record.column
        ∧ y.last = (s.lanes.get y.lane).record.column + ((s.lanes.get y.lane).record.keepLast - (s.lanes.get y.lane).record.keepFirst)
        ∧ y.fill = (s.lanes.get y.lane).record.fill

/-- An open frame passes the close test under a high-water mark: it is bounded, and every enabled lane's effective progress has reached
E − 1 (R76). -/
abbrev State.passesClose (s : State) (high : Int) (f : OpenFrame) : Prop :=
  ∃ e, f.stop = some e ∧ ∀ l, (s.lanes.get l).record.enable = true → e - 1 ≤ s.effective high l

/-- The close of a bounded frame that passes leads from s to t: E − S rows, TRUNCATED or NORMAL (R76). -/
def State.fullCloses (s t : State) (f : OpenFrame) : Prop :=
  ∀ e, f.stop = some e →
    t.slot f.slot = (s.slot f.slot).closedAs (e - f.start).toNat (if f.truncated = true then .truncated else .normal)

/-- Of the slots and records only those of the frames of a list go in the event that leads from s to t: every other slot keeps all but its
ready-band counts, one that is not OPEN all, and the records that leave are those of slots that have become FREE (R94, R96, R125). -/
def State.onlyCloses (s t : State) (fs : List OpenFrame) : Prop :=
  (∀ i, (∀ f ∈ fs, f.slot ≠ i) →
      t.slot i = { s.slot i with ready := (t.slot i).ready } ∧ ((s.slot i).state ≠ .opened → t.slot i = s.slot i))
    ∧ ∀ r, (t.dle.records.get r).map Delivery.core
        = ((s.dle.records.get r).filter fun d => (t.slot d.slot).state ≠ .free).map Delivery.core

/-- The ready-band counts of a side. -/
def Ready.counts (y : Ready) : Side → List Nat
  | .top => y.top
  | .bottom => y.bottom

/-- A band of an open frame's tile column is finished (R115, R117): every contributing lane has reached its last row, S + (b + 1) × Ht − 1,
and, if the frame is bounded, it ends before the frame's last row, (b + 1) × Ht < E − S. -/
abbrev State.bandFinished (s : State) (x : Slot) (side : Side) (col band : Nat) : Prop :=
  x.geometry.contributing side col ≠ []
    ∧ (∀ y ∈ x.geometry.contributing side col,
        x.start + ((band + 1 : Nat) : Int) * (x.geometry.tileHeight : Int) - 1 ≤ s.effective s.ptk.high y.lane)
    ∧ ∀ e, x.stop = some e → ((band + 1 : Nat) : Int) * (x.geometry.tileHeight : Int) < e - x.start

/-- A slot can be evicted: it is CLOSED and not retained, no reread of it is pending, no route's record for it is OPENED, and no port is
transmitting a FRAME_OPEN of it (R92). -/
abbrev State.mayEvict (s : State) (i : Nat) : Prop :=
  (s.slot i).state = .closed ∧ (s.slot i).retain = false ∧ (s.slot i).pendingRereads = 0
    ∧ (∀ r, ∀ d ∈ s.dle.records.get r, d.alloc = (s.slot i).alloc → d.state ≠ .opened)
    ∧ ∀ p r k, (s.ports.get p).tx ≠ some { source := .frameOpen r (s.slot i).alloc, packet := k }

/-! ## Routes and packets -/

/-- REVOKE ends a route's record without a packet: its mask names the route, and the record is PENDING with no FRAME_OPEN of it in
transmission (R144). -/
def State.revokeDrops (s : State) (p : Port) (c : InPacket) (alloc : Nat) (r : Fin 8) : Bool :=
  decide (s.revokes p c r)
    && (s.recordOf r alloc).any fun d =>
      d.state = .pending && !(s.ports.get (s.dle.routes.get r).port).sendingOpen r alloc

/-- A route's FRAME_OPEN is sendable with a plan (R130): the frame is closed; or the route delivers early, the first tile of the plan has
band 0 ready, and every enabled lane has resolved the frame's first row. -/
abbrev State.openSendable (s : State) (r : Fin 8) (x : Slot) (plan : Plan) : Prop :=
  x.rowCount.isSome = true
    ∨ (s.dle.routes.get r).early = true
        ∧ (∃ c n rest, plan.bandTiles x.geometry = (c, n) :: rest ∧ 0 < x.ready.count (layerSide n) c)
        ∧ ∀ l, (s.lanes.get l).record.enable = true → x.start ≤ s.effective s.ptk.high l

/-- The fields of a route's FRAME_OPEN for a frame under a plan (R130, 12.4); its Tag is left open (log entry 12). -/
def Packet.isFrameOpen (k : Packet) (r : Fin 8) (early : Bool) (x : Slot) (plan : Plan) : Prop :=
  k.kind = 0x82 ∧ k.stream = r.val
    ∧ k.payload =
        le 4 x.frame ++ le 1 r.val ++ le 1 x.kind.code ++ le 1 x.loop.first.val ++ le 1 x.loop.last.val ++ leSigned 6 x.start
          ++ le 2 x.geometry.widthTop ++ le 2 x.geometry.widthBottom ++ le 2 x.geometry.tileWidth ++ le 2 x.geometry.tileHeight
          ++ le 1 (maskOf plan.layers) ++ le 1 early.toNat ++ le 1 plan.colFirst ++ le 1 plan.colLast ++ le 1 plan.lead ++ le 1 0
          ++ le 2 (x.rowCount.getD 0)

/-- The fields of a route's FRAME_END for a frame, the slot's where it is closed, and otherwise reason NONE, no row, no lane and no run
(R132, 12.4); its Tag is left open (log entry 12). -/
def Packet.isFrameEnd (k : Packet) (r : Fin 8) (revoked : Bool) (x : Slot) : Prop :=
  k.kind = 0x85 ∧ k.stream = r.val
    ∧ (x.rowCount = none → x.closeReason = none → k.payload = le 4 x.frame ++ le 1 r.val ++ le 1 revoked.toNat ++ List.replicate 6 0)
    ∧ ∀ n reason, x.rowCount = some n → x.closeReason = some reason →
        k.payload =
          le 4 x.frame ++ le 1 r.val ++ le 1 revoked.toNat ++ le 1 (closeReasonCode (some reason))
            ++ le 1 (maskOf (x.degraded.map Fin.val)) ++ le 2 n ++ le 1 x.fillRuns.length ++ le 1 x.overflow.toNat
            ++ x.fillRuns.flatMap fun e =>
                le 1 e.lane.val ++ le 1 e.plane.val ++ le 1 e.cause.code ++ le 1 0 ++ le 2 e.first ++ le 2 e.count

/-- A port begins the segment of a route's tile from a record's cursor on: as many rows as fit, up to the tile's last (R133, R134). -/
def State.beginsSegment (s t : State) (p : Port) (r : Fin 8) (d : Delivery) (span : TileSpan) (col layer : Nat) : Prop :=
  let x := s.slot d.slot
  let first := d.cursor.band * x.geometry.tileHeight + d.cursor.row
  let rows := min span.rowsPerSegment (span.stop - first)
  ∃ last : Bool, (last = true ↔ span.stop ≤ first + rows)
    ∧ (t.ports.get p).tx = some
        { source := .segment r d.alloc rows last,
          packet :=
            { kind := 0x83, stream := r.val, tag := x.frame % 65536,
              payload := s.segmentPayload d.slot layer col d.cursor.band first rows last false } }

/-- A port begins the next segment of a reread tile (R147). -/
def State.beginsReread (s t : State) (p : Port) (e : Reread) : Prop :=
  let rows := min (s.rereadRows p e) (e.stop - e.next)
  (t.ports.get p).tile = some .reread
    ∧ ∃ last : Bool, (last = true ↔ e.stop ≤ e.next + rows)
      ∧ (t.ports.get p).tx = some
          { source := .reread e.alloc rows last,
            packet :=
              { kind := 0x83, stream := 0x40, tag := e.frame % 65536,
                payload := s.segmentPayload e.slot e.layer e.col e.band e.next rows last true } }

/-- Whether a delivery source has a unit to send: a route that names the port and offers one, or a reread queue that is not empty
(R160). -/
abbrev State.hasUnit (s : State) (p : Port) (i : Fin 9) : Prop :=
  (∃ r : Fin 8, r.val = i.val ∧ (s.dle.routes.get r).port = p ∧ s.offer r ≠ none) ∨ i = 8 ∧ s.dle.rereads.get p ≠ []

/-- Source i is the first with a unit to send in cyclic order from the one after the pointer (R160). -/
def State.firstAfter (s : State) (p : Port) (pointer i : Fin 9) : Prop :=
  ∃ n, 1 ≤ n ∧ n ≤ 9 ∧ i.val = (pointer.val + n) % 9 ∧ s.hasUnit p i
    ∧ ∀ m, 1 ≤ m → m < n → ∀ j : Fin 9, j.val = (pointer.val + m) % 9 → ¬ s.hasUnit p j

/-- What is fixed as a tile begins on a port: it ends with its band, or with a closed frame's rows where those end sooner (R131), and takes
the rows per segment of its width under the port's max segment, at least 1 (R133). -/
def State.spanOf (s : State) (p : Port) (x : Slot) (band col layer : Nat) : TileSpan :=
  { stop := (x.rowCount.map fun rows => min ((band + 1) * x.geometry.tileHeight) rows).getD ((band + 1) * x.geometry.tileHeight),
    rowsPerSegment :=
      max 1 (((s.ports.get p).record.maxSegment - 16)
        / (x.geometry.columnStop (layerSide layer) col - x.geometry.columnStart col)) }

/-- Every rest condition of R163 but the idle timer's own: rest enable set, the port UP, nothing in transmission, no reply, notice, tile
in progress or eligible source, and no route of the port meeting the wake-lead test; and, on port A, no command reset due (log entry
19). -/
abbrev State.mayRest (s : State) (p : Port) : Prop :=
  ¬ (p = .a ∧ s.rnc.resetDue = true) ∧
  (s.ports.get p).record.restEnable = true ∧ (s.ports.get p).link = .up ∧ (s.ports.get p).tx = none ∧ (s.ports.get p).tile = none
    ∧ s.workPresent p = false ∧ s.leadPresent p (s.routesOf p) = false

/-- The progress of some enabled lane differs (R59, R60). -/
abbrev State.movesProgress (s t : State) : Prop :=
  ∃ l, (t.lanes.get l).record.enable = true ∧ t.progress t.ptk.high l ≠ s.progress s.ptk.high l

/-- What every packet sent to its last byte leaves: the transmitter free, the packet counted out with its Length (R165), and position,
triggers, lanes, framing, layout, routes, notices and the other port as they were. -/
abbrev State.sentBy (s : State) (p : Port) (k : Packet) (t : State) : Prop :=
  (t.ports.get p).tx = none ∧ (t.ports.get p).link = (s.ports.get p).link
    ∧ (t.ports.get p).inbound = (s.ports.get p).inbound
    ∧ (t.ntu.counters.ports.get p).packetsOut = min 4294967295 ((s.ntu.counters.ports.get p).packetsOut + 1)
    ∧ (t.ntu.counters.ports.get p).payloadBytesOut
        = min 4294967295 ((s.ntu.counters.ports.get p).payloadBytesOut + k.payload.length)
    ∧ t.ntu.pending = s.ntu.pending ∧ t.ntu.enable = s.ntu.enable ∧ t.ptk = s.ptk ∧ t.tru = s.tru ∧ t.lanes = s.lanes
    ∧ t.frt = s.frt ∧ t.layout = s.layout ∧ t.dle.routes = s.dle.routes ∧ t.dle.paused = s.dle.paused ∧ t.now = s.now
    ∧ ∀ q, q ≠ p → t.ports.get q = s.ports.get q

/-- The values of power-up spelled out (R1, R22, R24, R42, R45, R62, R65, R84, R86, R105, R107, R122, R138, R151, R161, R166, R176,
R186), with the encoder lines at the levels given; the queue, the clock and the line store are those of the state before. -/
def State.poweredUp (t s : State) (encA encB : Bool) : Prop :=
  t.pending = s.pending ∧ t.now = s.now
    ∧ t.ptk =
        { scale :=
            { step := 10000, pitch := 100000, swapped := false, indexFalling := false, stallMs := 50, stallCloseS := 5,
              reverseLimit := 2000 },
          quadA := encA, quadB := encB, encoderCount := 0, acc := 0, tick := 0, high := 0, motion := .stalled,
          stallTimer := none, stallCloseTimer := some s.now, tickTimer := none, interval := none, pendingEdges := 0 }
    ∧ t.tru =
        { table := Eight.const { plane := 0, strobe := 1, exposure := 50, endOfGroup := true },
          loop := { first := 0, last := 0 }, staged := none, spacing := 100, pointer := 0, group := none, skipped := 0,
          strobes := 0, pulseEnd := none }
    ∧ t.lanes = Eight.const
        { record :=
            { enable := false, side := .top, offset := 0, expected := 8192, keepFirst := 0, keepLast := 8191, column := 0,
              mirror := false, fill := 0, timeoutUs := 500 },
          state := .disabled, linkUp := false, queue := [], nextTag := 0, placements := [], lastTrigger := none }
    ∧ t.frt =
        { record := { mode := .fixed, nominal := 1000, tolerance := 0, offset := 0 }, state := .seeking, lastBoundary := none,
          counter := 0, openList := [], capacity := 0, rewindHold := false, stopTick := none, triggersEnded := false }
    ∧ t.slm =
        { record := { count := 8, policy := .dropOldest }, slots := List.replicate 8 Slot.empty, allocCounter := 0,
          store := s.slm.store }
    ∧ t.layout = { widthTop := 8192, widthBottom := 8192, tileWidth := 1024, tileHeight := 256, planes := 1 }
    ∧ t.dle =
        { routes := Eight.const
            { enable := false, port := .a, layers := 1, colFirst := 0, colLast := 127, stride := 1, phase := 0, early := false,
              lead := 0 },
          records := Eight.const [], paused := 0, rereads := { a := [], b := [] } }
    ∧ (∀ p, t.ports.get p =
        { record := { maxSegment := 16384, restEnable := false, restDelay := 1000, wakeLead := 64 }, staged := none,
          link := .down, inbound := [], replies := [], notices := [], tx := none, tile := none, pointer := 8,
          idleTimer := none, wakeTimer := none, wakeOwed := false })
    ∧ t.rnc =
        { runState := .config, inHand := { a := none, b := none }, resetPending := false, resetDue := false,
          closeAtStopMade := false }
    ∧ t.ntu = { pending := 0, enable := 0, counters := Counters.zero }

/-! ## Invariants -/

/-- The position state is in range (R1, R5, R9, R10): S_e at least 100 and at most P_l, A below P_l, T at most H, both within 48
bits. -/
abbrev State.positionOk (s : State) : Prop :=
  100 ≤ s.ptk.scale.step ∧ s.ptk.scale.step ≤ s.ptk.scale.pitch ∧ s.ptk.acc < s.ptk.scale.pitch ∧ s.ptk.tick ≤ s.ptk.high
    ∧ Config.tickMin ≤ s.ptk.tick ∧ s.ptk.high ≤ Config.tickMax

/-- The queues of a host port keep within their limits (R156, R157, R182). -/
abbrev HostPort.queuesOk (h : HostPort) : Prop :=
  h.inbound.length ≤ Config.inboundLimit ∧ h.replies.length ≤ Config.replyLimit ∧ h.notices.length ≤ Config.noticeLimit

/-- Every queue of the part keeps within its limit (00, Fixed numbers; R52, R53, R69, R102, R146, R156, R157, R182). -/
abbrev State.queuesOk (s : State) : Prop :=
  (∀ l, (s.lanes.get l).queue.length ≤ Config.recordsPerLane ∧ (s.lanes.get l).placements.length ≤ Config.lineBuffers)
    ∧ s.frt.openList.length ≤ Config.openLimit
    ∧ s.ports.a.queuesOk ∧ s.ports.b.queuesOk
    ∧ s.dle.rereads.a.length ≤ Config.rereadLimit ∧ s.dle.rereads.b.length ≤ Config.rereadLimit
    ∧ ∀ x ∈ s.slm.slots, x.fillRuns.length ≤ Config.fillRunLimit

/-- No slot holds an allocation number that the counter has not reached (R88). -/
abbrev State.allocOk (s : State) : Prop := ∀ x ∈ s.slm.slots, x.alloc ≤ s.slm.allocCounter

/-- The open list names distinct OPEN slots that hold its frames, with their starts and ends (4.1, R70, R93). -/
abbrev State.openListOk (s : State) : Prop :=
  (s.frt.openList.map OpenFrame.slot).Nodup
    ∧ ∀ f ∈ s.frt.openList, f.slot < s.slm.slots.length ∧ (s.slot f.slot).state = .opened ∧ (s.slot f.slot).frame = f.number
        ∧ (s.slot f.slot).start = f.start ∧ (s.slot f.slot).stop = f.stop

/-- The frames in store have allocation numbers of their own, none of them 0, and in CONFIG every slot is FREE or HELD (R88, R171). -/
abbrev State.slotsOk (s : State) : Prop :=
  ((s.slm.slots.filter fun x => x.state ≠ .free).map Slot.alloc).Nodup
    ∧ (∀ x ∈ s.slm.slots, x.state ≠ .free → x.alloc ≠ 0)
    ∧ (s.rnc.runState = .config → ∀ x ∈ s.slm.slots, x.state = .free ∨ x.state = .held)

/-- A route has one record for a frame, each record's frame is in store, and the route of a record that is not final is among the
outstanding routes of its frame, which is OPEN or CLOSED (R94, R124, R125). -/
abbrev State.recordsOk (s : State) : Prop :=
  ∀ r, ((s.dle.records.get r).map Delivery.alloc).Nodup
    ∧ ∀ d ∈ s.dle.records.get r, (s.slot d.slot).alloc = d.alloc ∧ (s.slot d.slot).state ≠ .free
        ∧ (d.state.final = false → r ∈ (s.slot d.slot).outstanding ∧ (s.slot d.slot).state ≠ .held)

/-- The allocation number a FRAME_OPEN in transmission names; 0 for another packet. -/
def TxSource.openAlloc : TxSource → Nat
  | .frameOpen _ alloc => alloc
  | _ => 0

/-- A port that is DOWN transmits nothing (R153); while a FRAME_OPEN is in transmission its route's record, if it has not left, is
PENDING and the route is the port's (R130, R144). -/
abbrev State.opensOk (s : State) (p : Port) (h : HostPort) : Prop :=
  (h.link = .down → h.tx = none) ∧ (h.tx.all fun x => x.source.openAlloc ≤ s.slm.allocCounter)
    ∧ ∀ r, ∀ d ∈ s.dle.records.get r, h.sendingOpen r d.alloc = true → d.state = .pending ∧ (s.dle.routes.get r).port = p

/-- The frames, their slots and their delivery records agree. -/
abbrev State.framesOk (s : State) : Prop :=
  s.openListOk ∧ s.slotsOk ∧ s.recordsOk ∧ s.opensOk .a s.ports.a ∧ s.opensOk .b s.ports.b

end Machine
end Sys2Proof
end

