-- ==== Sys2Proof/Certificates/Slice0/Obligations.lean ====
section
/-! DEFINITION. The claims about the part, in the terms of Safety.lean. Each docstring names the rules of spec/ it formalises; where a
clause rests on a choice of the model it names the log entry. -/

open Sys2Proof Sys2Proof.Machine

/-! ## Steps -/

/-- A step is the command at the front of the queue, with its effect on the state with the queue's rest; on an empty queue one 10 ns
unit passes and nothing else changes. The queue and the idle step are the model's choice (log entries 4 and 5). -/
def Obligations.StepTakesTheFrontCommand : Prop :=
  (∀ (c : Instr) (rest : List Instr) (s : State), s.pending = c :: rest → step s = exec c { s with pending := rest })
    ∧ ∀ s : State, s.pending = [] → step s = .next { s with now := s.now + 1 }

/-- Every command but PLACEMENT_COMPLETE answers a next state in every state, and PLACEMENT_COMPLETE stops only where a line would be
written past the end of the line store (R87; log entry 11). No next state differs in the queue of waiting commands or has an earlier
clock, the model's own fields (log entries 2 and 4). -/
def Obligations.CommandsAnswerANextState : Prop :=
  ∀ (c : Instr) (s : State),
    (∃ t, exec c s = .next t ∧ t.pending = s.pending ∧ s.now ≤ t.now)
      ∨ ∃ l y ys, c = .placementComplete l ∧ (s.lanes.get l).placements = y :: ys ∧ s.placementOutside l y = true
          ∧ exec c s = .fault .lineStoreRange

/-- What the ports do after a command (R159 to R164) touches nothing but their transmitters, tiles in progress, pointers, timers and rest
states, the plans and FRAME_OPENs formed, and the spans and rows per segment fixed as a packet begins; a DOWN port stays DOWN and
begins nothing (R153), and a packet in transmission is not replaced. First each port that is not DOWN forms the FRAME_OPEN, with the
fields of 12.4, of every route whose current frame's record is PENDING and not paused once it is sendable (R127, R130; that it is
formed at the end of that step is log entry 39). Then a port that is UP and free begins the first class that has something: the reply at
the head, a notice, the next packet of the tile in progress, or, with no port record staged, a unit of the first eligible source after
the pointer in cyclic order, which the pointer then names (R159, R160, R162; that a new unit waits while a record is staged is log entry
14); and a port left free with every other rest condition met and its idle timer at or beyond the rest delay begins a REST, whichever of
them came last (R163; that port A begins nothing while a command reset is due is log entry 19). A route offers its formed FRAME_OPEN, its
tile once that is ready, its FRAME_END COMPLETE after its last tile, and, paused or not, the FRAME_END REVOKED its revoke flag owes (R131,
R132, R141, R145). The packets have the fields of 12.4 (R132 to R134, R145, R147); that the Stream of FRAME_OPEN and FRAME_END is the
route is log entry 12, and that a FRAME_END is formed as its transmission begins is log entry 40. -/
def Obligations.PortChoicesLeaveTheRest : Prop :=
  (∀ (s : State) (lead : Bool),
    s.sameCapture (s.settle lead) ∧ s.sameControl (s.settle lead) ∧ s.sameDelivery (s.settle lead)
      ∧ ∀ p, (s.ports.get p).sameQueues ((s.settle lead).ports.get p)
          ∧ ((s.ports.get p).link = .down → ((s.settle lead).ports.get p).link = .down ∧ ((s.settle lead).ports.get p).tx = (s.ports.get p).tx)
          ∧ ((s.ports.get p).tx.isSome → ((s.settle lead).ports.get p).tx = (s.ports.get p).tx))
    ∧ (∀ (s : State) (p : Port) (lead : Bool),
        s.settle lead = (s.settlePort .a lead).settlePort .b lead
          ∧ (∀ q, q ≠ p → (s.settlePort p lead).ports.get q = s.ports.get q)
          ∧ ((s.ports.get p).link = .up →
            let t := s.settlePort p lead
            let u := (s.formOpens p).choose p
            let waited := s.now - (s.ports.get p).idleTimer.getD s.now
            let rests := u.mayRest p ∧ (s.ports.get p).record.restDelay * 100 ≤ waited
            (rests → (t.ports.get p).tx =
                some { source := .rest, packet := { kind := 0x86, stream := 0x80, tag := 0, payload := [] } })
              ∧ (¬ rests → (t.ports.get p).tx = (u.ports.get p).tx) ∧ (t.ports.get p).tile = (u.ports.get p).tile
              ∧ (t.ports.get p).pointer = (u.ports.get p).pointer ∧ t.dle = u.dle))
    ∧ (∀ (s : State) (p : Port) (r : Fin 8) (d : Delivery),
        (s.ports.get p).link ≠ .down → (s.dle.routes.get r).port = p → s.current r = some d → s.recordOf r d.alloc = some d →
        let t := s.formOpens p
        let x := s.slot d.slot
        let plan := planOf (s.dle.routes.get r) x.geometry
        let forms := d.state = .pending ∧ d.opening = none ∧ s.dle.paused.getLsbD r.val = false ∧ s.openSendable r x plan
        (forms → ∃ k, k.isFrameOpen r (s.dle.routes.get r).early x plan
            ∧ t.recordOf r d.alloc = some { d with plan := some plan, opening := some k })
          ∧ (¬ forms → t.dle.records.get r = s.dle.records.get r))
    ∧ (∀ (s : State) (r : Fin 8) (d : Delivery), s.current r = some d →
        let x := s.slot d.slot
        let paused := s.dle.paused.getLsbD r.val
        (d.state = .opened → d.tileOpen = true → s.offer r = none)
          ∧ (d.state = .opened → d.tileOpen = false → d.revoke = true → s.offer r = some (.frameEnd true))
          ∧ (d.state = .pending → d.revoke = true → s.offer r = none)
          ∧ (d.revoke = false → paused = true → s.offer r = none)
          ∧ (d.state = .pending → d.revoke = false → paused = false → s.offer r = d.opening.map .frameOpen)
          ∧ (∀ plan, d.state = .opened → d.tileOpen = false → d.revoke = false → paused = false → d.plan = some plan →
              ((plan.bandTiles x.geometry).length ≤ d.cursor.index →
                  s.offer r = if x.rowCount.isSome then some (.frameEnd false) else none)
                ∧ ∀ c n, (plan.bandTiles x.geometry)[d.cursor.index]? = some (c, n) →
                  (x.rowCount = none → s.offer r = if d.cursor.band < x.ready.count (layerSide n) c then some (.tile c n) else none)
                    ∧ ∀ rows, x.rowCount = some rows →
                      s.offer r = some (if d.cursor.band < x.geometry.bands rows then .tile c n else .frameEnd false)))
    ∧ ∀ (s : State) (p : Port),
        (s.ports.get p).link = .up → (s.ports.get p).tx = none → ¬ (p = .a ∧ s.rnc.resetDue = true) →
        let h := s.ports.get p
        let t := s.choose p
        let noReply := ∀ k, h.replies.head? ≠ some (some k)
        (∀ k, h.replies.head? = some (some k) → (t.ports.get p).tx = some { source := .reply, packet := k })
          ∧ (∀ k, noReply → h.notices.head? = some k → (t.ports.get p).tx = some { source := .notice, packet := k })
          ∧ (noReply → h.notices = [] →
            (∀ r d plan span c n, h.tile = some (.route r) → s.current r = some d → d.plan = some plan → d.span = some span →
                (plan.bandTiles (s.slot d.slot).geometry)[d.cursor.index]? = some (c, n) →
                (¬ (d.revoke = true ∧ d.tileOpen = true) → s.beginsSegment t p r d span c n)
                  ∧ (d.revoke = true → d.tileOpen = true →
                    (t.ports.get p).tx = some
                      { source := .tileAbort r d.alloc,
                        packet :=
                          { kind := 0x84, stream := r.val, tag := (s.slot d.slot).frame % 65536,
                            payload := le 4 (s.slot d.slot).frame ++ le 1 n ++ le 1 c ++ le 2 d.cursor.band ++ le 2 d.cursor.row
                              ++ le 1 1 ++ le 1 0 } }))
              ∧ (∀ e es, h.tile = some .reread → s.dle.rereads.get p = e :: es → s.beginsReread t p e)
              ∧ (h.tile = none → h.staged.isSome → t = s)
              ∧ (h.tile = none → h.staged = none →
                ((∀ r, (s.dle.routes.get r).port = p → s.offer r = none) → s.dle.rereads.get p = [] → t = s)
                  ∧ ∀ i : Fin 9, s.firstAfter p h.pointer i →
                    (t.ports.get p).pointer = i
                      ∧ (∀ e es, i = 8 → s.dle.rereads.get p = e :: es → s.beginsReread t p e)
                      ∧ ∀ (r : Fin 8) d, i.val = r.val → s.current r = some d →
                        (∀ k, s.offer r = some (.frameOpen k) →
                            (t.ports.get p).tx = some { source := .frameOpen r d.alloc, packet := k })
                          ∧ (∀ revoked, s.offer r = some (.frameEnd revoked) →
                            ∃ k, k.isFrameEnd r revoked (s.slot d.slot)
                              ∧ (t.ports.get p).tx = some { source := .frameEnd r d.alloc revoked, packet := k })
                          ∧ ∀ c n, s.offer r = some (.tile c n) →
                            (t.ports.get p).tile = some (.route r)
                              ∧ s.beginsSegment t p r d (s.spanOf p (s.slot d.slot) d.cursor.band c n) c n))

/-- The tests that follow a change of lane progress (R76, R117) touch only the open list, the slot table and the delivery records, and lose
only records of slots they free. In a frame that stays OPEN each tile column's ready-band count is raised band by band, from where it
stands, for as long as every contributing lane has reached the band's last row and, in a bounded frame, the band ends before the last row
of the frame, and no further (R115, R117; that a frame not yet bounded is held back by no last row is log entry 35). Where the frames,
their slots and their records agree, the close test takes from the oldest frame on those that are bounded and that every enabled lane has
finished, up to the first that fails: each is closed with E − S rows as NORMAL or TRUNCATED, its fill runs clipped, its degraded lanes set
and every band ready, and stays CLOSED while a route or a reread is outstanding, or is HELD if retained, or freed (R76, R94, R95, R116);
every other slot keeps all but its ready-band counts; and the records that leave are those of slots that have become FREE (R94, R125). -/
def Obligations.ProgressTestsLeaveTheRest : Prop :=
  (∀ s : State,
    s.progressed.ptk = s.ptk ∧ s.progressed.tru = s.tru ∧ s.progressed.lanes = s.lanes ∧ s.progressed.layout = s.layout
      ∧ s.progressed.frt = { s.frt with openList := s.progressed.frt.openList } ∧ s.progressed.frt.openList <:+ s.frt.openList
      ∧ s.progressed.slm.store = s.slm.store ∧ s.progressed.slm.record = s.slm.record
      ∧ s.progressed.slm.allocCounter = s.slm.allocCounter ∧ s.progressed.slm.slots.length = s.slm.slots.length
      ∧ s.progressed.dle.routes = s.dle.routes ∧ s.progressed.dle.paused = s.dle.paused
      ∧ s.progressed.dle.rereads = s.dle.rereads ∧ (∀ r, (s.progressed.dle.records.get r).Sublist (s.dle.records.get r))
      ∧ s.progressed.ports = s.ports ∧ s.sameControl s.progressed)
    ∧ (∀ (s : State) (i : Nat), (s.progressed.slot i).state = .opened →
        let x := s.slot i
        let y := s.progressed.slot i
        y = { x with ready := y.ready } ∧ y.ready.closed = x.ready.closed
          ∧ y.ready.top.length = x.ready.top.length ∧ y.ready.bottom.length = x.ready.bottom.length
          ∧ ∀ side col, 0 < x.geometry.tileHeight → col < (x.ready.counts side).length →
            x.ready.count side col ≤ y.ready.count side col
              ∧ (∀ b, x.ready.count side col ≤ b → b < y.ready.count side col → s.bandFinished x side col b)
              ∧ ¬ s.bandFinished x side col (y.ready.count side col))
    ∧ ∀ (s : State) (k : Nat), s.framesOk →
        (∀ f ∈ s.frt.openList.take k, s.passesClose s.ptk.high f) →
        (∀ f, s.frt.openList[k]? = some f → ¬ s.passesClose s.ptk.high f) →
          s.progressed.frt.openList = s.frt.openList.drop k
            ∧ (∀ f ∈ s.frt.openList.take k, s.fullCloses s.progressed f)
            ∧ (∀ i, (∀ f ∈ s.frt.openList.take k, f.slot ≠ i) →
              s.progressed.slot i = { s.slot i with ready := (s.progressed.slot i).ready }
                ∧ ((s.slot i).state ≠ .opened → s.progressed.slot i = s.slot i))
            ∧ ∀ r, s.progressed.dle.records.get r
                = (s.dle.records.get r).filter fun d => (s.progressed.slot d.slot).state ≠ .free

/-! ## Taking commands -/

/-- A command that fails one of checks 1 to 5 of R169 is answered with the first of them that fails, and its reply is its only effect. -/
def Obligations.RefusedCommandsOnlyReply : Prop :=
  ∀ (i : Instr) (p : Port) (code : Nat) (s : State) (c : InPacket) (rest : List InPacket) (result : Result),
    i.command = some (p, code) → s.mayTake p c rest → c.kind = code → s.firstRefusal p c = some result →
      exec i s = .next ((s.took p rest).refuses p c result)

/-- Checks 1 to 5 of R169 in their order: the payload check, the kind, the length, the port, the state; a command that fails none
of them is not refused here. -/
def Obligations.ChecksAreJudgedInOrder : Prop :=
  ∀ (s : State) (p : Port) (c : InPacket),
    (c.check = .fail → s.firstRefusal p c = some .badCheck)
      ∧ (c.check ≠ .fail → c.kind ∉ commandCodes → s.firstRefusal p c = some .unknownKind)
      ∧ ∀ row ∈ catalogue, c.check ≠ .fail → c.kind = row.code →
          (c.length ≠ row.length → s.firstRefusal p c = some .badLength)
            ∧ (c.length = row.length →
                (p = .b ∧ row.code ∈ deniedFromB → s.firstRefusal p c = some .denied)
                  ∧ (¬ (p = .b ∧ row.code ∈ deniedFromB) →
                      (row.code ∈ configCodes ∧ s.rnc.runState ≠ .config
                          ∨ row.code = 0x21 ∧ s.rnc.runState ≠ .running
                          ∨ row.code = 0x15 ∧ 0 < s.slotsIn .held → s.firstRefusal p c = some .busy)
                        ∧ (¬ (row.code ∈ configCodes ∧ s.rnc.runState ≠ .config
                          ∨ row.code = 0x21 ∧ s.rnc.runState ≠ .running
                          ∨ row.code = 0x15 ∧ 0 < s.slotsIn .held) → s.firstRefusal p c = none)))

/-- A packet whose kind is no command code is answered UNKNOWN_KIND, or BAD_CHECK when its payload check failed, and changes nothing
else (R155, R169, R170). -/
def Obligations.UnknownKindsAreAnswered : Prop :=
  ∀ (p : Port) (s : State) (c : InPacket) (rest : List InPacket), s.mayTake p c rest → c.kind ∉ commandCodes →
    exec (.unknownKind p) s
      = .next ((s.took p rest).refuses p c (if c.check = .fail then .badCheck else .unknownKind))

/-- A command row changes nothing where its packet cannot be taken: no packet of its kind stands first, the reply queue holds 8, a
command is in hand or a reset is pending (R157, R168, R176; log entry 1). -/
def Obligations.CommandsWaitUntilTheyCanBeTaken : Prop :=
  ∀ (i : Instr) (p : Port) (code : Nat) (s : State), i.command = some (p, code) →
    (∀ c rest, (s.ports.get p).inbound = c :: rest → c.kind ≠ code)
        ∨ 8 ≤ (s.ports.get p).replies.length ∨ (s.rnc.inHand.get p).isSome ∨ (p = .a ∧ s.rnc.resetPending = true) →
      exec i s = .next s

/-! ## Reading the part -/

/-- IDENTIFY returns the fixed identity record from either port in every run state (R178, 12.5). -/
def Obligations.IdentifyReturnsTheIdentityRecord : Prop :=
  ∀ (p : Port) (s : State) (c : InPacket) (rest : List InPacket), s.mayTake p c rest → c.passes 0x01 0 →
    exec (.identify p) s = .next ((s.took p rest).answered p c
      [0x71, 0x0B, 0x18, 0x0B, 3, 8, 2, 0, 0, 0, 0, 0, 1, 0, 0, 0])

/-- GET_STATUS returns the 68 bytes of the status record with each block's readings in their places; the speed reading is 0 while
STALLED, in debt or with no interval, and otherwise P_l × 100 ÷ I rounded down; the oldest and newest frames in store are those of the
lowest and highest allocation number, with their presence bits, and zeros where no frame is in store (R16, R20, R61, R83, R89, R104,
R179, R187, 12.5). A reverse debt beyond 48 bits signed has no stated field, and the model leaves it free (log entry 30). -/
def Obligations.GetStatusReadsThePart : Prop :=
  ∀ (p : Port) (s : State) (c : InPacket) (rest : List InPacket), s.mayTake p c rest → c.passes 0x02 0 →
    ∃ r : List Byte, exec (.getStatus p) s = .next ((s.took p rest).answered p c r) ∧ r.length = 68
      ∧ bytesAt r 0 4 = le 1 s.rnc.runState.code ++ le 1 s.frt.state.code ++ le 1 s.ptk.motion.code
          ++ le 1 (if s.ptk.tick < s.ptk.high then 1 else 0)
      ∧ (s.ptk.high - s.ptk.tick ≤ 140737488355327 → bytesAt r 4 6 = leSigned 6 (s.ptk.high - s.ptk.tick))
      ∧ bytesAt r 10 12 = leSigned 6 s.ptk.tick ++ leSigned 6 s.ptk.high
      ∧ bytesAt r 22 8 = le 4 s.ptk.speed ++ leSigned 4 s.ptk.encoderCount.toInt
      ∧ (s.ptk.motion = .stalled ∨ s.ptk.tick < s.ptk.high ∨ s.ptk.interval = none → s.ptk.speed = 0)
      ∧ (∀ i, s.ptk.motion = .moving → s.ptk.high ≤ s.ptk.tick → s.ptk.interval = some i → s.ptk.speed = s.ptk.scale.pitch * 100 / i)
      ∧ (∀ l : Fin 8, bytesAt r (30 + 2 * l.val) 2
          = le 1 (s.lanes.get l).state.code ++ le 1 (s.lanes.get l).queue.length)
      ∧ bytesAt r 46 4 = le 1 (s.slotsIn .free) ++ le 1 (s.slotsIn .opened) ++ le 1 (s.slotsIn .closed) ++ le 1 (s.slotsIn .held)
      ∧ ((∀ x ∈ s.slm.slots, x.state = .free) → bytesAt r 50 10 = List.replicate 10 0)
      ∧ ((∃ x ∈ s.slm.slots, x.state ≠ .free) → bytesAt r 50 2 = [3, 0])
      ∧ (∀ i, i < s.slm.slots.length → (s.slot i).state ≠ .free →
          ((∀ j, j < s.slm.slots.length → (s.slot j).state ≠ .free → j ≠ i → (s.slot i).alloc < (s.slot j).alloc) →
              bytesAt r 52 4 = le 4 (s.slot i).frame)
            ∧ ((∀ j, j < s.slm.slots.length → (s.slot j).state ≠ .free → j ≠ i → (s.slot j).alloc < (s.slot i).alloc) →
              bytesAt r 56 4 = le 4 (s.slot i).frame))
      ∧ bytesAt r 60 4 = le 1 s.ports.a.link.code ++ le 1 s.ports.b.link.code ++ le 1 s.dle.paused.toNat ++ le 1 0
      ∧ bytesAt r 64 4 = le 2 s.ntu.pending.toNat ++ le 2 s.ntu.enable.toNat

/-- GET_STATS returns the 396 bytes of the counters as they stand, and with the clear flag at 1 zeroes every counter in the same event;
another flag is BAD_VALUE (R185, R188). -/
def Obligations.GetStatsReadsAndClears : Prop :=
  ∀ (p : Port) (s : State) (c : InPacket) (rest : List InPacket), s.mayTake p c rest → c.passes 0x03 1 →
    s.ntu.counters.record.length = 396
      ∧ (byteAt c.payload 0 = 0 → exec (.getStats p) s = .next ((s.took p rest).answered p c s.ntu.counters.record))
      ∧ (byteAt c.payload 0 = 1 →
          exec (.getStats p) s = .next (State.answered
            { s.took p rest with ntu := { s.ntu with counters := Counters.zero } } p c s.ntu.counters.record))
      ∧ (2 ≤ byteAt c.payload 0 → exec (.getStats p) s = .next ((s.took p rest).refuses p c .badValue))

/-- GET_CONFIG returns the record its selector and number name, as it stands, and BAD_VALUE for any other selector or number (R180,
12.2, 12.5). -/
def Obligations.GetConfigReturnsTheRecordNamed : Prop :=
  ∀ (p : Port) (s : State) (c : InPacket) (rest : List InPacket) (l : Fin 8) (q : Port), s.mayTake p c rest → c.passes 0x04 2 →
    (byteAt c.payload 0 = 0 → exec (.getConfig p) s = .next ((s.took p rest).answered p c s.ptk.scale.record))
      ∧ (byteAt c.payload 0 = 1 → exec (.getConfig p) s = .next ((s.took p rest).answered p c s.tru.record))
      ∧ (byteAt c.payload 0 = 2 → byteAt c.payload 1 = l.val →
          exec (.getConfig p) s = .next ((s.took p rest).answered p c ((s.lanes.get l).record.record l)))
      ∧ (byteAt c.payload 0 = 3 → exec (.getConfig p) s = .next ((s.took p rest).answered p c s.frt.record.record))
      ∧ (byteAt c.payload 0 = 4 → exec (.getConfig p) s = .next ((s.took p rest).answered p c s.layout.record))
      ∧ (byteAt c.payload 0 = 5 → exec (.getConfig p) s = .next ((s.took p rest).answered p c s.storeRecord))
      ∧ (byteAt c.payload 0 = 6 → byteAt c.payload 1 = l.val →
          exec (.getConfig p) s = .next ((s.took p rest).answered p c ((s.dle.routes.get l).record l)))
      ∧ (byteAt c.payload 0 = 7 → byteAt c.payload 1 = portCode q →
          exec (.getConfig p) s = .next ((s.took p rest).answered p c ((s.ports.get q).portRecord q)))
      ∧ (byteAt c.payload 0 = 8 → exec (.getConfig p) s = .next ((s.took p rest).answered p c (le 2 s.ntu.enable.toNat)))
      ∧ (9 ≤ byteAt c.payload 0 ∨ (byteAt c.payload 0 = 2 ∨ byteAt c.payload 0 = 6) ∧ 8 ≤ byteAt c.payload 1
            ∨ byteAt c.payload 0 = 7 ∧ 2 ≤ byteAt c.payload 1 →
          exec (.getConfig p) s = .next ((s.took p rest).refuses p c .badValue))

/-! ## Setup records -/

/-- A setup command that passes checks 1 to 5 of R169 but carries a field out of the range that 1.2 to 9.6 give it is BAD_VALUE, and one
whose fields disagree with each other or with other settings is CONFLICT; nothing but the reply changes. SET_PORT is so in every run
state, the others in CONFIG, where alone they are accepted (R1, R24, R25, R45, R46, R65, R86, R107, R108, R122, R161, R169, R188). -/
def Obligations.SetupCommandsRefuseBadFields : Prop :=
  ∀ (s : State) (c : InPacket) (rest : List InPacket), s.mayTake .a c rest →
    (s.rnc.runState = .config →
      (c.passes 0x10 16 →
        (readScale c.payload = none ↔ ¬ scaleInRange c.payload)
          ∧ (readScale c.payload = none → exec (.setScale .a) s = .next ((s.took .a rest).refuses .a c .badValue))
          ∧ ∀ r, readScale c.payload = some r → r.pitch < r.step →
              exec (.setScale .a) s = .next ((s.took .a rest).refuses .a c .conflict))
      ∧ (c.passes 0x11 36 →
        (readPhases c.payload = none ↔ ¬ phasesInRange c.payload)
          ∧ (readPhases c.payload = none → exec (.setPhases .a) s = .next ((s.took .a rest).refuses .a c .badValue))
          ∧ ∀ table loop spacing, readPhases c.payload = some (table, loop, spacing) → loopOk table loop spacing = false →
              exec (.setPhases .a) s = .next ((s.took .a rest).refuses .a c .badValue))
      ∧ (c.passes 0x12 16 →
        (readLane c.payload = none ↔ ¬ laneInRange c.payload)
          ∧ (readLane c.payload = none → exec (.setLane .a) s = .next ((s.took .a rest).refuses .a c .badValue))
          ∧ ∀ l r, readLane c.payload = some (l, r) → r.enable = true → s.laneFits l r = false →
              exec (.setLane .a) s = .next ((s.took .a rest).refuses .a c .conflict))
      ∧ (c.passes 0x13 8 →
        (readFraming c.payload = none ↔ ¬ framingInRange c.payload)
          ∧ (readFraming c.payload = none → exec (.setFraming .a) s = .next ((s.took .a rest).refuses .a c .badValue))
          ∧ ∀ r, readFraming c.payload = some r → r.nominal ≤ r.tolerance →
              exec (.setFraming .a) s = .next ((s.took .a rest).refuses .a c .conflict))
      ∧ (c.passes 0x14 10 →
        (readLayout c.payload = none ↔ ¬ layoutInRange c.payload)
          ∧ (readLayout c.payload = none → exec (.setLayout .a) s = .next ((s.took .a rest).refuses .a c .badValue))
          ∧ ∀ y, readLayout c.payload = some y → s.layoutFits y = false →
              exec (.setLayout .a) s = .next ((s.took .a rest).refuses .a c .conflict))
      ∧ (c.passes 0x15 2 → s.slotsIn .held = 0 → (readStore c.payload = none ↔ ¬ storeInRange c.payload)
          ∧ (readStore c.payload = none → exec (.setStore .a) s = .next ((s.took .a rest).refuses .a c .badValue)))
      ∧ (c.passes 0x16 8 →
        (readRoute c.payload = none ↔ ¬ routeInRange c.payload)
          ∧ (readRoute c.payload = none → exec (.setRoute .a) s = .next ((s.took .a rest).refuses .a c .badValue))
          ∧ ∀ n r, readRoute c.payload = some (n, r) → r.enable = true →
              (s.ports.get r.port).record.maxSegment < s.layout.tileWidth + 16 →
              exec (.setRoute .a) s = .next ((s.took .a rest).refuses .a c .conflict)))
      ∧ (c.passes 0x17 10 →
        (readPort c.payload = none ↔ ¬ portInRange c.payload)
          ∧ (readPort c.payload = none → exec (.setPort .a) s = .next ((s.took .a rest).refuses .a c .badValue))
          ∧ ∀ p r, readPort c.payload = some (p, r) → r.maxSegment < s.layout.tileWidth + 16 →
              (∃ i, (s.dle.routes.get i).port = p ∧ (s.dle.routes.get i).enable = true) →
              exec (.setPort .a) s = .next ((s.took .a rest).refuses .a c .conflict))

/-- An accepted SET_SCALE replaces the record, zeroes A and unstarts the tick timer; while STALLED the stall-close timer starts again
or stops; while MOVING a stall timer already at the new stall time enters STALLED at once (R2). -/
def Obligations.SetScaleTakesEffect : Prop :=
  ∀ (s : State) (c : InPacket) (rest : List InPacket) (r : ScaleRecord), s.mayTake .a c rest → c.passes 0x10 16 →
    s.rnc.runState = .config → readScale c.payload = some r → r.step ≤ r.pitch →
      (s.ptk.motion = .stalled →
        exec (.setScale .a) s = .next (State.answered
          { s.took .a rest with ptk :=
            { s.ptk with scale := r, acc := 0, tickTimer := none, interval := none,
                         stallCloseTimer := if r.stallCloseS = 0 then none else some s.now } } .a c []))
        ∧ (∀ t, s.ptk.motion = .moving → s.ptk.stallTimer = some t → s.now - t < r.stallMs * 100000 →
          exec (.setScale .a) s = .next (State.answered
            { s.took .a rest with ptk := { s.ptk with scale := r, acc := 0, tickTimer := none, interval := none } } .a c []))
        ∧ (∀ t, s.ptk.motion = .moving → s.ptk.stallTimer = some t → r.stallMs * 100000 ≤ s.now - t →
          exec (.setScale .a) s = .next (State.answered
            (State.raise
              { s.took .a rest with ptk :=
                { s.ptk with scale := r, acc := 0, tickTimer := none, interval := none, motion := .stalled, stallTimer := none,
                             stallCloseTimer := if r.stallCloseS = 0 then none else some s.now } } .stall) .a c []))

/-- An accepted SET_PHASES replaces the table, the bounds and the spacing, and sets the entry pointer to loop start with nothing
skipped and nothing staged. A loop that passes the structure check is cut into groups of one size K from 1 to 4, each with no plane
twice and with the loop's plane set (R25, R26). -/
def Obligations.SetPhasesTakesEffect : Prop :=
  (∀ (s : State) (c : InPacket) (rest : List InPacket) (table : Eight PhaseEntry) (loop : LoopBounds) (spacing : Nat),
      s.mayTake .a c rest → c.passes 0x11 36 → s.rnc.runState = .config → readPhases c.payload = some (table, loop, spacing) →
      loopOk table loop spacing = true →
        exec (.setPhases .a) s = .next (State.answered
          { s.took .a rest with tru :=
            { s.tru with table := table, loop := loop, spacing := spacing, pointer := loop.first, skipped := 0, staged := none } }
          .a c []))
    ∧ ∀ (table : Eight PhaseEntry) (loop : LoopBounds) (spacing : Nat), loop.first ≤ loop.last → loopOk table loop spacing = true →
      ∃ k, 1 ≤ k ∧ k ≤ 4 ∧ ∀ g ∈ cutGroups (loopEntries table loop),
        g.length = k ∧ (g.map PhaseEntry.plane).Nodup ∧ planeMask (g.map PhaseEntry.plane) = planeMask (planesOf table loop)

/-- SET_LOOP is applied at once in CONFIG; in a run it is staged, a loop of another plane set is CONFLICT, and a loop that fails the
structure check is BAD_VALUE in every run state (R27, R28). -/
def Obligations.SetLoopIsAppliedOrStaged : Prop :=
  ∀ (s : State) (c : InPacket) (rest : List InPacket) (loop : LoopBounds), s.mayTake .a c rest → c.passes 0x38 2 →
    (readLoop (byteAt c.payload 0) (byteAt c.payload 1) = none →
        exec (.setLoop .a) s = .next ((s.took .a rest).refuses .a c .badValue))
      ∧ (readLoop (byteAt c.payload 0) (byteAt c.payload 1) = some loop →
          (loopOk s.tru.table loop s.tru.spacing = false →
              exec (.setLoop .a) s = .next ((s.took .a rest).refuses .a c .badValue))
            ∧ (loopOk s.tru.table loop s.tru.spacing = true →
                (s.rnc.runState = .config →
                    exec (.setLoop .a) s = .next (State.answered
                      { s.took .a rest with tru := { s.tru with loop := loop, pointer := loop.first } } .a c []))
                  ∧ (s.rnc.runState ≠ .config → planeMask (planesOf s.tru.table loop) = s.tru.planeSet →
                    exec (.setLoop .a) s = .next (State.answered
                      { s.took .a rest with tru := { s.tru with staged := some loop } } .a c []))
                  ∧ (s.rnc.runState ≠ .config → planeMask (planesOf s.tru.table loop) ≠ s.tru.planeSet →
                    exec (.setLoop .a) s = .next ((s.took .a rest).refuses .a c .conflict))))

/-- An accepted SET_LANE replaces the lane record, and the lane state follows the enable field and the link state by the table of
R47; every other lane and all else stand. -/
def Obligations.SetLaneTakesEffect : Prop :=
  ∀ (s : State) (c : InPacket) (rest : List InPacket) (l : Fin 8) (r : LaneRecord), s.mayTake .a c rest → c.passes 0x12 16 →
    s.rnc.runState = .config → readLane c.payload = some (l, r) → (r.enable = true → s.laneFits l r = true) →
      exec (.setLane .a) s = .next (State.answered
        ((s.took .a rest).setLane l fun n =>
          { n with
            record := r,
            state :=
              if r.enable = false then .disabled
              else if n.state = .disabled then (if n.linkUp then .ready else .down)
              else n.state }) .a c [])

/-- Accepted SET_FRAMING, SET_LAYOUT and SET_STORE replace their records whole; SET_STORE rebuilds the slot table with every slot FREE
(R66, R86, R108). -/
def Obligations.FramingLayoutAndStoreAreReplaced : Prop :=
  ∀ (s : State) (c : InPacket) (rest : List InPacket), s.mayTake .a c rest → s.rnc.runState = .config →
    (∀ r, c.passes 0x13 8 → readFraming c.payload = some r → r.tolerance < r.nominal →
        exec (.setFraming .a) s = .next (State.answered { s.took .a rest with frt := { s.frt with record := r } } .a c []))
      ∧ (∀ y, c.passes 0x14 10 → readLayout c.payload = some y → s.layoutFits y = true →
        exec (.setLayout .a) s = .next (State.answered { s.took .a rest with layout := y } .a c []))
      ∧ (∀ r, c.passes 0x15 2 → s.slotsIn .held = 0 → readStore c.payload = some r →
        exec (.setStore .a) s = .next (State.answered
          { s.took .a rest with slm := { s.slm with record := r, slots := List.replicate r.count Slot.empty } } .a c []))

/-- An accepted SET_ROUTE replaces the record of its route, and SET_LEAD the lead column alone; from port B SET_LEAD leaves a route of
port A as it is and is still OK (R123, R136). -/
def Obligations.RoutesAndLeadsAreReplaced : Prop :=
  ∀ (s : State) (c : InPacket) (rest : List InPacket) (n : Fin 8),
    (∀ r, s.mayTake .a c rest → c.passes 0x16 8 → s.rnc.runState = .config → readRoute c.payload = some (n, r) →
        (r.enable = true → s.layout.tileWidth + 16 ≤ (s.ports.get r.port).record.maxSegment) →
        exec (.setRoute .a) s = .next (State.answered
          { s.took .a rest with dle := { s.dle with routes := s.dle.routes.set n r } } .a c []))
      ∧ ∀ p, s.mayTake p c rest → c.passes 0x36 2 →
        (byteAt c.payload 0 = n.val → byteAt c.payload 1 ≤ 127 →
          ((p = .a ∨ (s.dle.routes.get n).port = .b) →
              exec (.setLead p) s = .next (State.answered
                { s.took p rest with
                  dle := { s.dle with routes := s.dle.routes.set n { s.dle.routes.get n with lead := byteAt c.payload 1 } } }
                p c []))
            ∧ ((p = .b ∧ (s.dle.routes.get n).port = .a) → exec (.setLead p) s = .next ((s.took p rest).answered p c [])))
          ∧ (8 ≤ byteAt c.payload 0 ∨ 128 ≤ byteAt c.payload 1 →
            exec (.setLead p) s = .next ((s.took p rest).refuses p c .badValue))

/-- An accepted SET_PORT is in force at once when its port has no tile in progress: where the idle timer stands at or beyond the new rest
delay and every other rest condition is met under the new record, the port begins a REST at once; a record that clears rest enable
wakes a RESTING port, and owes a wake to one that is transmitting its REST. With a tile in progress the record is staged, and the
command waits in hand with its reply place reserved (R162, R163, R164, R168). The place of that judgement before the command's own reply
is filled, the wake for a cleared rest enable, and that port A begins no REST while a command reset is due, are the model's choices (log
entries 38, 15 and 19). -/
def Obligations.SetPortIsInForceOrStaged : Prop :=
  ∀ (s : State) (c : InPacket) (rest : List InPacket) (p : Port) (r : PortRecord), s.mayTake .a c rest → c.passes 0x17 10 →
    readPort c.payload = some (p, r) →
    (s.layout.tileWidth + 16 ≤ r.maxSegment ∨ ∀ i, (s.dle.routes.get i).port = p → (s.dle.routes.get i).enable = false) →
      let u := (s.took .a rest).setPort p fun h => { h with record := r, staged := none }
      ((s.ports.get p).tile = none → r.restEnable = true →
          ((∀ v, (s.ports.get p).idleTimer = some v → s.now - v < r.restDelay * 100) ∨ ¬ u.mayRest p →
              exec (.setPort .a) s = .next (u.answered .a c []))
            ∧ ∀ v, (s.ports.get p).idleTimer = some v → r.restDelay * 100 ≤ s.now - v → u.mayRest p →
              exec (.setPort .a) s = .next (State.answered
                (u.setPort p fun h =>
                  { h with
                    tx := some { source := .rest, packet := { kind := 0x86, stream := 0x80, tag := 0, payload := [] } },
                    wakeOwed := false }) .a c []))
        ∧ ((s.ports.get p).tile = none → r.restEnable = false →
          ((s.ports.get p).link ≠ .resting → (∀ k, (s.ports.get p).tx ≠ some { source := .rest, packet := k }) →
              exec (.setPort .a) s = .next (u.answered .a c []))
            ∧ (∀ k, (s.ports.get p).link ≠ .resting → (s.ports.get p).tx = some { source := .rest, packet := k } →
              exec (.setPort .a) s = .next (State.answered (u.setPort p fun h => { h with wakeOwed := true }) .a c []))
            ∧ ((s.ports.get p).link = .resting →
              exec (.setPort .a) s = .next (State.answered
                (u.setPort p fun h => { h with link := .waking, wakeTimer := some s.now }) .a c [])))
        ∧ ((s.ports.get p).tile ≠ none →
          exec (.setPort .a) s = .next (State.holds ((s.took .a rest).setPort p fun h => { h with staged := some r }) .a c))

/-- SET_NOTICES replaces the enable flags and leaves every pending flag; CLEAR_NOTICES clears the pending flags it names and leaves the
others and the enable flags; both in every run state (R183). A source raised with its pending flag set changes nothing; with the flag clear
it sets the flag, and if it is enabled, port A is not DOWN and fewer than 16 notices wait, a NOTICE with the source, H, and the frame, lane
and detail of the raising joins the tail of port A's notice queue; otherwise the flag is all (R181, R182, 12.4). -/
def Obligations.NoticeMasksAreSetAndCleared : Prop :=
  (∀ (s : State) (c : InPacket) (rest : List InPacket) (p : Port),
    (s.mayTake .a c rest → c.passes 0x18 2 →
        exec (.setNotices .a) s = .next (State.answered
          { s.took .a rest with ntu := { s.ntu with enable := BitVec.ofNat 16 (u16 c.payload 0) } } .a c []))
      ∧ (s.mayTake p c rest → c.passes 0x37 2 →
        ∃ pending : BitVec 16,
          exec (.clearNotices p) s = .next (State.answered { s.took p rest with ntu := { s.ntu with pending := pending } } p c [])
            ∧ ∀ i < 16, pending.getLsbD i = (s.ntu.pending.getLsbD i && !(u16 c.payload 0).testBit i)))
    ∧ ∀ (s : State) (x : Source) (frame : Option Nat) (lane : Option (Fin 8)) (detail : Int),
      let t := s.raise x frame lane detail
      let notice : Packet :=
        { kind := 0x81, stream := 0x80, tag := 0,
          payload := le 1 x.number ++ le 1 (frame.isSome.toNat + 2 * lane.isSome.toNat) ++ le 1 ((lane.map Fin.val).getD 0) ++ le 1 0
            ++ leSigned 6 s.ptk.high ++ le 2 0 ++ le 4 (frame.getD 0) ++ leSigned 6 detail }
      (maskHas s.ntu.pending x = true → t = s)
        ∧ (maskHas s.ntu.pending x = false →
          t = { s with ntu := { s.ntu with pending := t.ntu.pending }, ports := t.ports }
            ∧ (∀ y, maskHas t.ntu.pending y = (maskHas s.ntu.pending y || decide (y = x)))
            ∧ (maskHas s.ntu.enable x = true → s.ports.a.link ≠ .down → s.ports.a.notices.length < 16 →
                t.ports = { s.ports with a := { s.ports.a with notices := s.ports.a.notices ++ [notice] } })
            ∧ (maskHas s.ntu.enable x = false ∨ s.ports.a.link = .down ∨ 16 ≤ s.ports.a.notices.length → t.ports = s.ports))

/-! ## Run control -/

/-- RUN_START is CONFLICT while the setup is not consistent (R172). With a consistent setup it begins a run: the position and the
queues start from 0, the READY lanes become ACTIVE, the frames of an earlier run are gone but the HELD ones, framing is SEEKING
with the row capacity of R87, and the run state is RUNNING, with RUN_STATE raised; the setup, the counters, the clock and all else at
the ports but the notices of port A stand (R23, R43, R63, R85, R106, R121, R139, R171, R173). -/
def Obligations.RunStartBeginsARun : Prop :=
  ∀ (s : State) (c : InPacket) (rest : List InPacket), s.mayTake .a c rest → c.passes 0x20 0 → s.rnc.runState = .config →
    (¬ s.setupConsistent → exec (.runStart .a) s = .next ((s.took .a rest).refuses .a c .conflict))
      ∧ (s.setupConsistent → ∃ t : State, exec (.runStart .a) s = .next (t.answered .a c [])
          ∧ t.rnc = { s.rnc with runState := .running }
          ∧ t.ptk = { s.ptk with
              encoderCount := 0, acc := 0, tick := 0, high := 0, tickTimer := none, interval := none, pendingEdges := 0 }
          ∧ t.tru = { s.tru with pointer := s.tru.loop.first, group := none, skipped := 0, staged := none }
          ∧ (∀ l, t.lanes.get l =
              { s.lanes.get l with
                state := if (s.lanes.get l).state = .ready then .active else (s.lanes.get l).state,
                queue := [], nextTag := 0, placements := [] })
          ∧ t.frt =
              { record := s.frt.record, state := .seeking, lastBoundary := none, counter := 0, openList := [],
                capacity := s.rowCapacity, rewindHold := false, stopTick := none, triggersEnded := false }
          ∧ (∀ i, ((s.slot i).state = .free ∨ (s.slot i).state = .held → t.slot i = s.slot i)
              ∧ ((s.slot i).state = .opened ∨ (s.slot i).state = .closed → t.slot i = Slot.empty))
          ∧ (∀ r d, d ∈ t.dle.records.get r ↔ d ∈ s.dle.records.get r
              ∧ ∀ i, (s.slot i).state = .opened ∨ (s.slot i).state = .closed → d.alloc ≠ (s.slot i).alloc)
          ∧ t.slm.store = s.slm.store ∧ t.slm.record = s.slm.record ∧ t.slm.allocCounter = s.slm.allocCounter
          ∧ t.layout = s.layout ∧ t.dle.routes = s.dle.routes ∧ t.dle.paused = s.dle.paused ∧ t.dle.rereads = s.dle.rereads
          ∧ t.ntu.counters = s.ntu.counters ∧ t.ntu.enable = s.ntu.enable ∧ maskHas t.ntu.pending .runState = true
          ∧ t.ports.b = s.ports.b ∧ t.ports.a = { s.ports.a with inbound := rest, notices := t.ports.a.notices } ∧ t.now = s.now)

/-- RUN_STOP makes the run state DRAINING at stop tick H, and the PENDING records of the routes of a port that is DOWN are PENDING no
longer: where the frames, their slots and their records agree, they become SKIPPED, and the records that leave are those of slots that have
become FREE (R81, R94, R125, R150, R174). In DRAINING, once the close at stop is made and every slot is FREE or HELD, END_OF_DRAINING
returns the run state to CONFIG: lanes return to READY, staged loop bounds take effect and the pointer goes to loop start (R17, R44, R64,
R175). That until then it changes nothing is the model's choice (log entry 1). -/
def Obligations.RunsDrainAndEnd : Prop :=
  (∀ (s : State) (c : InPacket) (rest : List InPacket), s.mayTake .a c rest → c.passes 0x21 0 → s.rnc.runState = .running →
      ∃ t : State, exec (.runStop .a) s = .next (t.answered .a c [])
        ∧ t.rnc = { s.rnc with runState := .draining, closeAtStopMade := false }
        ∧ t.frt = { s.frt with stopTick := some s.ptk.high, triggersEnded := false }
        ∧ t.ptk = s.ptk ∧ t.tru = s.tru ∧ t.lanes = s.lanes ∧ t.layout = s.layout
        ∧ t.slm.store = s.slm.store ∧ t.slm.record = s.slm.record ∧ t.slm.allocCounter = s.slm.allocCounter
        ∧ t.dle.routes = s.dle.routes ∧ t.dle.paused = s.dle.paused ∧ t.dle.rereads = s.dle.rereads
        ∧ t.ntu.counters = s.ntu.counters ∧ t.ntu.enable = s.ntu.enable ∧ maskHas t.ntu.pending .runState = true
        ∧ (∀ r d, d ∈ t.dle.records.get r → (s.ports.get (s.dle.routes.get r).port).link = .down → d.state ≠ .pending)
        ∧ (∀ r, (s.ports.get (s.dle.routes.get r).port).link ≠ .down →
            (t.dle.records.get r).Sublist (s.dle.records.get r))
        ∧ (s.framesOk → ∀ r, t.dle.records.get r =
            ((s.dle.records.get r).map fun d =>
              if (s.ports.get (s.dle.routes.get r).port).link = .down ∧ d.state = .pending then
                { d with state := .skipped, opening := none, revoke := false, tileOpen := false, span := none }
              else d).filter fun d => (t.slot d.slot).state ≠ .free)
        ∧ (s.ports.a.link ≠ .down → s.ports.b.link ≠ .down → t.dle = s.dle ∧ t.slm = s.slm))
    ∧ ∀ s : State, s.pwrOk = true →
      ((s.rnc.runState = .draining ∧ s.rnc.closeAtStopMade = true ∧ ∀ x ∈ s.slm.slots, x.state = .free ∨ x.state = .held) →
          ∃ t : State, exec .endOfDraining s = .next (t.settle false)
            ∧ t.rnc = { s.rnc with runState := .config } ∧ t.ptk = { s.ptk with pendingEdges := 0 }
            ∧ t.tru.loop = s.tru.staged.getD s.tru.loop ∧ t.tru.staged = none ∧ t.tru.pointer = t.tru.loop.first
            ∧ t.tru.skipped = 0 ∧ t.tru.table = s.tru.table ∧ t.tru.spacing = s.tru.spacing
            ∧ (s.tru.group = none → t.tru.group = none)
            ∧ (∀ l, t.lanes.get l =
                { s.lanes.get l with
                  state := if (s.lanes.get l).state = .active ∨ (s.lanes.get l).state = .rejoin then .ready
                    else (s.lanes.get l).state })
            ∧ t.frt = s.frt ∧ t.slm = s.slm ∧ t.layout = s.layout ∧ t.dle = s.dle
            ∧ t.ntu.counters = s.ntu.counters ∧ t.ntu.enable = s.ntu.enable ∧ maskHas t.ntu.pending .runState = true)
        ∧ (¬ (s.rnc.runState = .draining ∧ s.rnc.closeAtStopMade = true ∧ ∀ x ∈ s.slm.slots, x.state = .free ∨ x.state = .held) →
          exec .endOfDraining s = .next s)

/-- RESET is answered OK and holds port A; once its reply has gone, COMMAND_RESET gives every block its reset values, and keeps the
link states (a RESTING port wakes), the encoder levels, the line store, port B's inbound buffer and replies, a packet in transmission,
and a tile in progress while a segment of it is in transmission (R22, R42, R62, R84, R105, R138, R151, R167, R176, R186). The model's own
choices are that COMMAND_RESET changes nothing until it is due (log entry 1), the clock (2), the row capacity of 0 (8), that a command in
hand goes without its reply (14), that a port transmitting a REST owes a wake (15), what a packet in transmission is afterwards, and that
a TILE_ABORT keeps its tile as a segment does (19), the encoder levels (28), the pending flags, which it clears (29), and the last TRIGGER
(25). -/
def Obligations.ResetIsAnsweredAndThenTaken : Prop :=
  (∀ (s : State) (c : InPacket) (rest : List InPacket), s.mayTake .a c rest → c.passes 0x22 0 →
      exec (.reset .a) s = .next (State.answered
        { s.took .a rest with rnc := { s.rnc with resetPending := true } } .a c []))
    ∧ (∀ s : State, s.pwrOk = true → s.rnc.resetDue = false → exec .commandReset s = .next s)
    ∧ ∀ s : State, s.pwrOk = true → s.rnc.resetDue = true →
      ∃ t : State, exec .commandReset s = .next (t.settle false)
        ∧ t.ptk = Ptk.reset s.ptk.quadA s.ptk.quadB s.now ∧ t.tru = Tru.reset
        ∧ (∀ l, t.lanes.get l = Lane.reset (s.lanes.get l).linkUp)
        ∧ t.frt = Frt.reset ∧ t.slm = Slm.reset s.slm.store ∧ t.layout = LayoutRecord.default ∧ t.dle = Dle.reset
        ∧ t.rnc = Rnc.reset ∧ t.ntu = Ntu.reset ∧ t.now = s.now ∧ t.pwrOk = true
        ∧ ∀ p, (t.ports.get p).record = PortRecord.default ∧ (t.ports.get p).staged = none
            ∧ (t.ports.get p).link = (if (s.ports.get p).link = .resting then .waking else (s.ports.get p).link)
            ∧ (t.ports.get p).inbound = (if p = .a then [] else (s.ports.get p).inbound)
            ∧ (t.ports.get p).replies = (if p = .a then [] else (s.ports.get p).replies)
            ∧ (t.ports.get p).notices = [] ∧ (t.ports.get p).pointer = 8
            ∧ (((s.ports.get p).tx = none ∨ ∃ x k, (s.ports.get p).tx = some { source := x, packet := k } ∧ x.ofTile = false) →
                (t.ports.get p).tile = none)
            ∧ (∀ x k, (s.ports.get p).tx = some { source := x, packet := k } →
              (x.ofTile = true → (t.ports.get p).tile = (s.ports.get p).tile)
                ∧ (x = .rest → (t.ports.get p).link = .up → (t.ports.get p).wakeOwed = true))
            ∧ (t.ports.get p).tx.map Tx.packet = (s.ports.get p).tx.map Tx.packet

/-- POWER_UP gives every register, queue, counter and record the value the manual states for power-up, with the encoder lines at the
levels found, and PWR_OK_LOW holds the part in those values; while PWR_OK is low no other command changes anything (R22, R42, R62,
R84, R105, R138, R151, R166, R177, R186). The model's own choices are the clock (log entry 2), the queue (4), the row capacity (8), that
POWER_UP is taken at any level of PWR_OK and that nothing else runs while it is low (13), the absent last TRIGGER (25) and the cleared
fields of a FREE slot (33). -/
def Obligations.PowerUpTakesTheResetValues : Prop :=
  (∀ (encA encB : Bool) (s : State), ∃ t, exec (.powerUp encA encB) s = .next t ∧ t.poweredUp s encA encB ∧ t.pwrOk = true)
    ∧ (∀ s : State, ∃ t, exec .pwrOkLow s = .next t ∧ t.poweredUp s s.ptk.quadA s.ptk.quadB ∧ t.pwrOk = false)
    ∧ ∀ (c : Instr) (s : State), s.pwrOk = false → (∀ a b, c ≠ .powerUp a b) → c ≠ .pwrOkLow → exec c s = .next s

/-! ## Delivery control -/

/-- PAUSE adds to the paused mask the routes its mask names and takes back their FRAME_OPENs that are formed and not in transmission, so
that they are formed anew after RESUME; RESUME takes the routes it names out of the mask; from port B only routes of port B are touched,
and the command is OK all the same (R140, R141, R157). -/
def Obligations.PauseAndResumeWriteThePausedMask : Prop :=
  ∀ (s : State) (p : Port) (c : InPacket) (rest : List InPacket), s.mayTake p c rest →
    let named := fun r : Fin 8 => (byteAt c.payload 0).testBit r.val && decide (p = .a ∨ (s.dle.routes.get r).port = .b)
    (c.passes 0x30 1 → ∃ (paused : BitVec 8) (records : Eight (List Delivery)),
        exec (.pause p) s
            = .next (State.answered { s.took p rest with dle := { s.dle with paused := paused, records := records } } p c [])
          ∧ (∀ r : Fin 8, paused.getLsbD r.val = (s.dle.paused.getLsbD r.val || named r))
          ∧ ∀ r : Fin 8, records.get r =
              if named r then
                (s.dle.records.get r).map fun d =>
                  if d.state = .pending ∧ (s.ports.get (s.dle.routes.get r).port).sendingOpen r d.alloc = false then
                    { d with plan := none, opening := none }
                  else d
              else s.dle.records.get r)
      ∧ (c.passes 0x31 1 → ∃ paused : BitVec 8,
        exec (.resume p) s = .next (State.answered { s.took p rest with dle := { s.dle with paused := paused } } p c [])
          ∧ ∀ r : Fin 8, paused.getLsbD r.val = (s.dle.paused.getLsbD r.val && !named r))

/-- REVOKE of a frame not in store is NOT_FOUND. Of a frame found, where the frames, their slots and their records agree, route by route:
a named route's PENDING record with no FRAME_OPEN in transmission becomes REVOKED and leaves the slot's outstanding routes; a PENDING
record whose FRAME_OPEN is in transmission, and an OPENED record whose FRAME_END COMPLETE is not, take the revoke flag; every other
record stands. If by that no route and no reread of a CLOSED frame is outstanding, the slot becomes HELD where it is retained, and
otherwise FREE, and all the frame's records leave with it; every other slot stands (R89, R94, R125, R137, R143, R144, R145). -/
def Obligations.RevokeEndsOrFlagsTheRecords : Prop :=
  ∀ (s : State) (p : Port) (c : InPacket) (rest : List InPacket), s.mayTake p c rest → c.passes 0x32 5 →
    (s.lookupCapture (u32 c.payload 0) = none → exec (.revoke p) s = .next ((s.took p rest).refuses p c .notFound))
      ∧ ∀ i, s.lookupCapture (u32 c.payload 0) = some i →
        ∃ t : State, exec (.revoke p) s = .next (t.answered p c [])
          ∧ t.ptk = s.ptk ∧ t.tru = s.tru ∧ t.lanes = s.lanes ∧ t.frt = s.frt ∧ t.layout = s.layout ∧ t.rnc = s.rnc ∧ t.ntu = s.ntu
          ∧ t.slm.store = s.slm.store ∧ t.slm.allocCounter = s.slm.allocCounter ∧ t.ports = (s.took p rest).ports
          ∧ t.dle.routes = s.dle.routes ∧ t.dle.paused = s.dle.paused ∧ t.dle.rereads = s.dle.rereads
          ∧ (s.framesOk →
            let x := s.slot i
            let ends := fun r => s.revokeDrops p c x.alloc r
            let left := x.outstanding.filter fun r => !ends r
            let ended := (∃ r, ends r = true) ∧ x.state = .closed ∧ left = [] ∧ x.pendingRereads = 0
            (∀ j, j ≠ i → t.slot j = s.slot j)
              ∧ (ended → x.retain = false → t.slot i = Slot.empty
                  ∧ ∀ r, t.dle.records.get r = (s.dle.records.get r).filter fun d => d.alloc ≠ x.alloc)
              ∧ (ended → x.retain = true → t.slot i = { x with state := .held, retain := false, outstanding := [] })
              ∧ (¬ ended → t.slot i = { x with outstanding := left })
              ∧ (¬ (ended ∧ x.retain = false) → ∀ r, t.dle.records.get r = (s.dle.records.get r).map fun d =>
                  let h := s.ports.get (s.dle.routes.get r).port
                  if d.alloc ≠ x.alloc ∨ ¬ s.revokes p c r ∨ d.state.final = true then d
                  else if d.state = .pending ∧ h.sendingOpen r d.alloc = false then
                    { d with state := .revoked, opening := none, revoke := false, tileOpen := false, span := none }
                  else if d.state = .opened ∧ h.sendingEnd r d.alloc = true then d
                  else { d with revoke := true }))

/-- RETAIN sets the retain flag of the frame found, up to 4 retained or HELD frames. RELEASE clears it; a CLOSED frame then takes the
freeing test, and a HELD one is freed, or waits with release-pending set while rereads stand. Every other outcome is the row of the
table it falls in (R89, R94, R97, R98). -/
def Obligations.RetainAndReleaseFollowTheirTables : Prop :=
  ∀ (s : State) (p : Port) (c : InPacket) (rest : List InPacket), s.mayTake p c rest →
    (c.passes 0x33 4 →
        (s.lookupCapture (u32 c.payload 0) = none → exec (.retain p) s = .next ((s.took p rest).refuses p c .notFound))
          ∧ ∀ i, s.lookupCapture (u32 c.payload 0) = some i →
            ((s.slot i).state = .held ∨ (s.slot i).retain = true → exec (.retain p) s = .next ((s.took p rest).answered p c []))
              ∧ ((s.slot i).state ≠ .held → (s.slot i).retain = false →
                (4 ≤ s.slm.slots.countP (fun x => x.retain) + s.slm.slots.countP (fun x => x.state = .held) →
                    exec (.retain p) s = .next ((s.took p rest).refuses p c .limit))
                  ∧ (s.slm.slots.countP (fun x => x.retain) + s.slm.slots.countP (fun x => x.state = .held) < 4 →
                    exec (.retain p) s
                      = .next (State.answered ((s.took p rest).setSlot i fun x => { x with retain := true }) p c []))))
      ∧ (c.passes 0x34 4 →
        (s.lookupHeld (u32 c.payload 0) = none → exec (.release p) s = .next ((s.took p rest).refuses p c .notFound))
          ∧ ∀ i, s.lookupHeld (u32 c.payload 0) = some i →
            let x := s.slot i
            (x.state = .opened ∨ x.state = .closed ∧ ¬ (x.outstanding = [] ∧ x.pendingRereads = 0) →
                exec (.release p) s
                  = .next (State.answered ((s.took p rest).setSlot i fun y => { y with retain := false }) p c []))
              ∧ (x.state = .closed ∧ x.outstanding = [] ∧ x.pendingRereads = 0 ∨ x.state = .held ∧ x.pendingRereads = 0 →
                ∃ t : State, exec (.release p) s = .next (t.answered p c [])
                  ∧ t.slot i = Slot.empty ∧ (∀ j, j ≠ i → t.slot j = s.slot j)
                  ∧ (∀ r, t.dle.records.get r = (s.dle.records.get r).filter fun d => d.alloc ≠ x.alloc)
                  ∧ t.slm.store = s.slm.store ∧ t.slm.allocCounter = s.slm.allocCounter ∧ t.frt = s.frt ∧ t.rnc = s.rnc
                  ∧ t.dle.rereads = s.dle.rereads ∧ t.ntu = s.ntu)
              ∧ (x.state = .held → 0 < x.pendingRereads →
                exec (.release p) s
                  = .next (State.answered ((s.took p rest).setSlot i fun y => { y with releasePending := true }) p c [])))

/-- REREAD takes its checks in order: NOT_FOUND, BAD_VALUE for a tile the frame does not have, CONFLICT for a frame that is not HELD
or CLOSED with its retain flag or that is being released, LIMIT at 8 entries; one that passes queues the tile's rows at its port and
raises the slot's pending rereads by one (R89, R99, R146). -/
def Obligations.RereadQueuesATile : Prop :=
  ∀ (s : State) (p : Port) (c : InPacket) (rest : List InPacket), s.mayTake p c rest → c.passes 0x35 8 →
    (s.lookupHeld (u32 c.payload 0) = none → exec (.reread p) s = .next ((s.took p rest).refuses p c .notFound))
      ∧ ∀ i, s.lookupHeld (u32 c.payload 0) = some i →
        let x := s.slot i
        let layer := byteAt c.payload 4
        let col := byteAt c.payload 5
        let band := u16 c.payload 6
        let bad := 7 < layer ∨ layer ∉ x.geometry.layers ∨ x.geometry.columns (layerSide layer) ≤ col
          ∨ ∃ n, x.rowCount = some n ∧ x.geometry.bands n ≤ band
        let conflict := ¬ (x.state = .held ∨ x.state = .closed ∧ x.retain = true) ∨ x.releasePending = true
        (bad → exec (.reread p) s = .next ((s.took p rest).refuses p c .badValue))
          ∧ (¬ bad → conflict → exec (.reread p) s = .next ((s.took p rest).refuses p c .conflict))
          ∧ (¬ bad → ¬ conflict → 8 ≤ (s.dle.rereads.get p).length →
              exec (.reread p) s = .next ((s.took p rest).refuses p c .limit))
          ∧ (¬ bad → ¬ conflict → (s.dle.rereads.get p).length < 8 →
              ∃ (e : Reread) (t : State), exec (.reread p) s = .next (t.answered p c [])
                ∧ t = (((s.took p rest).setRereads p fun es => es ++ [e]).setSlot i fun y =>
                    { y with pendingRereads := y.pendingRereads + 1 })
                ∧ e.slot = i ∧ e.alloc = x.alloc ∧ e.frame = x.frame ∧ e.layer = layer ∧ e.band = band ∧ e.col = col
                ∧ e.first = band * x.geometry.tileHeight ∧ e.next = e.first ∧ e.isOpen = false
                ∧ (∀ n, x.rowCount = some n → e.stop = min ((band + 1) * x.geometry.tileHeight) n))

/-! ## Web position -/

/-- A count moves the decoder to the new levels and the encoder count by one, in the direction of the table of R3 inverted when
polarity is swapped; the motion logic takes it first: MOVING, the stall timer afresh, and MOTION raised when it ends a stall (R3,
R12, R13). -/
def Obligations.CountsMoveTheDecoderAndTheMotion : Prop :=
  ∀ (line : EncLine) (s : State), s.pwrOk = true → ∃ t : State, exec (.count line) s = .next t
    ∧ (line = .encA → t.ptk.quadA = !s.ptk.quadA ∧ t.ptk.quadB = s.ptk.quadB)
    ∧ (line = .encB → t.ptk.quadA = s.ptk.quadA ∧ t.ptk.quadB = !s.ptk.quadB)
    ∧ t.ptk.encoderCount =
        (if xor
            (decide ((s.ptk.quadA, s.ptk.quadB, t.ptk.quadA, t.ptk.quadB) ∈
              [(false, false, true, false), (true, false, true, true), (true, true, false, true), (false, true, false, false)]))
            s.ptk.scale.swapped
          then s.ptk.encoderCount + 1 else s.ptk.encoderCount - 1)
    ∧ t.ptk.motion = .moving ∧ t.ptk.stallTimer = some s.now ∧ t.ptk.scale = s.ptk.scale
    ∧ (s.ptk.motion = .stalled → t.ptk.stallCloseTimer = none ∧ maskHas t.ntu.pending .motion = true)
    ∧ t.now = s.now ∧ t.rnc = s.rnc ∧ t.layout = s.layout ∧ t.slm.store = s.slm.store ∧ t.ntu.enable = s.ntu.enable
    ∧ t.dle.routes = s.dle.routes ∧ t.dle.paused = s.dle.paused

/-- A forward count adds the encoder step to A, and carries a line pitch into T; T beyond H raises H and emits a tick, which ends one
interval and starts the next, is counted, and outside CONFIG takes the pending index edges with it; past the top of the range the
count is an encoder error. A count that emits no tick, or one in CONFIG, leaves triggers, lanes, frames and slots alone (R5, R7, R8,
R9, R15, R18). -/
def Obligations.ForwardCountsAccumulateAndTick : Prop :=
  ∀ (line : EncLine) (s : State), s.pwrOk = true → s.ptk.countForward line = true →
    ∃ t : State, exec (.count line) s = .next t
      ∧ (s.ptk.acc + s.ptk.scale.step < s.ptk.scale.pitch →
          t.ptk.acc = s.ptk.acc + s.ptk.scale.step ∧ t.ptk.tick = s.ptk.tick ∧ t.ptk.high = s.ptk.high
            ∧ t.ntu.counters = s.ntu.counters)
      ∧ (s.ptk.scale.pitch ≤ s.ptk.acc + s.ptk.scale.step → 140737488355327 < s.ptk.tick + 1 →
          t.ptk.acc = s.ptk.acc ∧ t.ptk.tick = s.ptk.tick ∧ t.ptk.high = s.ptk.high
            ∧ t.ntu.counters.position.encoderErrors = min 4294967295 (s.ntu.counters.position.encoderErrors + 1))
      ∧ (s.ptk.scale.pitch ≤ s.ptk.acc + s.ptk.scale.step → s.ptk.tick + 1 ≤ 140737488355327 →
          t.ptk.acc = s.ptk.acc + s.ptk.scale.step - s.ptk.scale.pitch ∧ t.ptk.tick = s.ptk.tick + 1
            ∧ t.ptk.high = max s.ptk.high (s.ptk.tick + 1)
            ∧ (s.ptk.high < s.ptk.tick + 1 →
                t.ptk.tickTimer = some s.now
                  ∧ t.ptk.interval = s.ptk.tickTimer.map (fun u => min 4294967295 (max 1 (s.now - u)))
                  ∧ t.ntu.counters.position.ticks = min 4294967295 (s.ntu.counters.position.ticks + 1)
                  ∧ t.ptk.pendingEdges = (if s.rnc.runState = .config then s.ptk.pendingEdges else 0)))
      ∧ (t.ptk.high = s.ptk.high →
          t.ptk.tickTimer = s.ptk.tickTimer ∧ t.ptk.interval = s.ptk.interval ∧ t.ptk.pendingEdges = s.ptk.pendingEdges
            ∧ t.ntu.counters.position.ticks = s.ntu.counters.position.ticks)
      ∧ (t.ptk.high = s.ptk.high ∨ s.rnc.runState = .config →
          t.tru = s.tru ∧ t.lanes = s.lanes ∧ t.frt = s.frt ∧ t.slm = s.slm ∧ t.layout = s.layout ∧ s.sameDelivery t)

/-- A reverse count takes the encoder step from A, and borrows a line pitch from T; it never emits a tick. When the debt reaches a
reverse limit that is not 0, H falls to T, the tick timer and the interval are none, the rewind is counted and raised, and in a run
framing returns to SEEKING under the rewind hold and every open frame is short-closed with the high-water mark from before it: where the
frames, their slots and their records agree, its slot is closed SHORT_REWIND with the short row count R, its fill runs clipped and its
degraded lanes set, or freed where R is not positive, and no other slot or record goes; each one kept is counted short and raises
FRAME_SHORT, each one freed is counted dropped EMPTY and raises FRAME_DROPPED; past the bottom of the range the count is an encoder error
(R6, R9, R11, R77, R79, R80, R94, R95, R96). That a close sets every ready-band count also where it falls is log entry 34. -/
def Obligations.ReverseCountsBorrowAndRewind : Prop :=
  ∀ (line : EncLine) (s : State), s.pwrOk = true → s.ptk.countForward line = false →
    ∃ t : State, exec (.count line) s = .next t
      ∧ t.ntu.counters.position.ticks = s.ntu.counters.position.ticks ∧ t.ptk.pendingEdges = s.ptk.pendingEdges
      ∧ (s.ptk.scale.step ≤ s.ptk.acc →
          t.ptk.acc = s.ptk.acc - s.ptk.scale.step ∧ t.ptk.tick = s.ptk.tick ∧ t.ptk.high = s.ptk.high
            ∧ t.ntu.counters = s.ntu.counters)
      ∧ (s.ptk.acc < s.ptk.scale.step → s.ptk.tick - 1 < -140737488355328 →
          t.ptk.acc = s.ptk.acc ∧ t.ptk.tick = s.ptk.tick ∧ t.ptk.high = s.ptk.high
            ∧ t.ntu.counters.position.encoderErrors = min 4294967295 (s.ntu.counters.position.encoderErrors + 1))
      ∧ (s.ptk.acc < s.ptk.scale.step → -140737488355328 ≤ s.ptk.tick - 1 →
          t.ptk.acc = s.ptk.acc + s.ptk.scale.pitch - s.ptk.scale.step ∧ t.ptk.tick = s.ptk.tick - 1
            ∧ ((s.ptk.scale.reverseLimit = 0 ∨ s.ptk.high - (s.ptk.tick - 1) < s.ptk.scale.reverseLimit) →
                t.ptk.high = s.ptk.high ∧ t.ntu.counters.position.rewinds = s.ntu.counters.position.rewinds)
            ∧ (s.ptk.scale.reverseLimit ≠ 0 → (s.ptk.scale.reverseLimit : Int) ≤ s.ptk.high - (s.ptk.tick - 1) →
                t.ptk.high = s.ptk.tick - 1 ∧ t.ptk.tickTimer = none ∧ t.ptk.interval = none
                  ∧ t.ntu.counters.position.rewinds = min 4294967295 (s.ntu.counters.position.rewinds + 1)
                  ∧ maskHas t.ntu.pending .rewind = true
                  ∧ (s.rnc.runState ≠ .config →
                      t.frt = { s.frt with openList := [], state := .seeking, lastBoundary := none, rewindHold := true }
                        ∧ (∀ rows, List.Forall₂ (s.isShortRows s.ptk.high) s.frt.openList rows → s.countsShorts t rows)
                        ∧ (s.framesOk → (∀ f ∈ s.frt.openList, s.shortCloses t .shortRewind f) ∧ s.onlyCloses t s.frt.openList))))
      ∧ t.tru = s.tru ∧ t.lanes = s.lanes ∧ t.layout = s.layout
      ∧ (t.ptk.high = s.ptk.high → t.ptk.tickTimer = s.ptk.tickTimer ∧ t.ptk.interval = s.ptk.interval)
      ∧ (t.ptk.high = s.ptk.high ∨ s.rnc.runState = .config → t.frt = s.frt ∧ t.slm = s.slm ∧ s.sameDelivery t)

/-- An encoder error moves the quadrature state to the new levels and the encoder-errors counter by one, saturating, and nothing else:
the encoder count, A, T, H, the timers and the motion state stand, and no notice is raised (R4). -/
def Obligations.EncoderErrorsAreOnlyCounted : Prop :=
  ∀ s : State, s.pwrOk = true → ∃ t : State, exec .encoderError s = .next t
    ∧ t.ptk = { s.ptk with quadA := !s.ptk.quadA, quadB := !s.ptk.quadB }
    ∧ t.ntu = { s.ntu with counters := { s.ntu.counters with position :=
        { s.ntu.counters.position with encoderErrors := min 4294967295 (s.ntu.counters.position.encoderErrors + 1) } } }
    ∧ t.tru = s.tru ∧ t.lanes = s.lanes ∧ t.frt = s.frt ∧ t.slm = s.slm ∧ t.layout = s.layout ∧ t.rnc = s.rnc ∧ t.now = s.now
    ∧ s.sameDelivery t ∧ ∀ p, (s.ports.get p).sameQueues (t.ports.get p)

/-- An edge on ENC_Z of the chosen polarity is counted in every run state and, outside CONFIG, raises the pending index edges, both
saturating; an edge of the other polarity changes neither (R17). -/
def Obligations.IndexEdgesAreCountedAndHeld : Prop :=
  ∀ (rising : Bool) (s : State), s.pwrOk = true → ∃ t : State, exec (.indexEdge rising) s = .next t
    ∧ (rising = s.ptk.scale.indexFalling → t.ptk = s.ptk ∧ t.ntu = s.ntu)
    ∧ (rising ≠ s.ptk.scale.indexFalling →
        t.ptk = { s.ptk with pendingEdges :=
            if s.rnc.runState = .config then s.ptk.pendingEdges else min 65535 (s.ptk.pendingEdges + 1) }
          ∧ t.ntu = { s.ntu with counters := { s.ntu.counters with position :=
            { s.ntu.counters.position with indexEdges := min 4294967295 (s.ntu.counters.position.indexEdges + 1) } } })
    ∧ t.tru = s.tru ∧ t.lanes = s.lanes ∧ t.frt = s.frt ∧ t.slm = s.slm ∧ t.layout = s.layout ∧ t.rnc = s.rnc ∧ t.now = s.now
    ∧ s.sameDelivery t ∧ ∀ p, (s.ports.get p).sameQueues (t.ports.get p)

/-- While MOVING, STALL comes no sooner than the stall time after the last count, makes the motion state STALLED, raises STALL and
starts the stall-close timer unless its time is 0. While STALLED, STALL_CLOSE_EXPIRY comes no sooner than the stall close time, stops
the timer and, in a run, short-closes every open frame and returns framing to SEEKING: where the frames, their slots and their records
agree, each slot is closed SHORT_STALL with the short row count R, its fill runs clipped and its degraded lanes set, or freed where R is
not positive, and no other slot or record goes; each one kept is counted short and raises FRAME_SHORT, each one freed is counted dropped
EMPTY and raises FRAME_DROPPED. SEEKING with nothing open is left alone (R12, R14, R77, R78, R94, R95, R96). That with no timer running
neither step changes anything, the clock, and that a close sets every ready-band count also where it falls, are the model's own (log
entries 1, 2 and 34). -/
def Obligations.StallsStopTheWebAndCloseFrames : Prop :=
  ∀ s : State, s.pwrOk = true →
    (∀ u, s.ptk.motion = .moving → s.ptk.stallTimer = some u → ∃ t : State, exec .stall s = .next t
        ∧ t.now = max s.now (u + s.ptk.scale.stallMs * 100000)
        ∧ t.ptk = { s.ptk with
            motion := .stalled, stallTimer := none,
            stallCloseTimer := if s.ptk.scale.stallCloseS = 0 then none else some t.now }
        ∧ maskHas t.ntu.pending .stall = true ∧ t.ntu.counters = s.ntu.counters
        ∧ t.tru = s.tru ∧ t.lanes = s.lanes ∧ t.frt = s.frt ∧ t.slm = s.slm ∧ t.layout = s.layout ∧ t.rnc = s.rnc
        ∧ s.sameDelivery t)
      ∧ (s.ptk.motion = .stalled ∨ s.ptk.stallTimer = none → exec .stall s = .next s)
      ∧ (∀ u, s.ptk.motion = .stalled → s.ptk.stallCloseTimer = some u → ∃ t : State, exec .stallCloseExpiry s = .next t
        ∧ t.now = max s.now (u + s.ptk.scale.stallCloseS * 100000000)
        ∧ t.ptk = { s.ptk with stallCloseTimer := none }
        ∧ t.tru = s.tru ∧ t.lanes = s.lanes ∧ t.layout = s.layout ∧ t.rnc = s.rnc ∧ t.slm.store = s.slm.store
        ∧ (s.rnc.runState = .config ∨ s.frt.state = .seeking ∧ s.frt.openList = [] →
            t.frt = s.frt ∧ t.slm = s.slm ∧ t.ntu = s.ntu ∧ s.sameDelivery t)
        ∧ (s.rnc.runState ≠ .config → ¬ (s.frt.state = .seeking ∧ s.frt.openList = []) →
            t.frt = { s.frt with openList := [], state := .seeking, lastBoundary := none }
              ∧ (∀ rows, List.Forall₂ (s.isShortRows s.ptk.high) s.frt.openList rows → s.countsShorts t rows)
              ∧ (s.framesOk → (∀ f ∈ s.frt.openList, s.shortCloses t .shortStall f) ∧ s.onlyCloses t s.frt.openList)))
      ∧ (s.ptk.motion = .moving ∨ s.ptk.stallCloseTimer = none → exec .stallCloseExpiry s = .next s)

/-! ## Triggers and framing -/

/-- A later entry of the group in progress is issued no sooner than its place in the spacing: its strobe pulse rises for one exposure. An
ACTIVE or REJOIN lane with fewer than 64 records takes a trigger record and sends a TRIGGER, and for a lane in REJOIN the row at t − D
is filled REJOIN for the entry's plane; a full one is withheld, its row filled BEHIND; a DOWN lane takes no record, and its row is
filled LANE_DOWN; a READY or DISABLED lane has nothing (R31, R32, R33, R34, R35, R37, R50, R100, R102). The clock and the kept copy of
the last TRIGGER are the model's own (log entries 2 and 25). -/
def Obligations.EntriesAreIssuedToTheLanes : Prop :=
  ∀ (s : State) (g : Group) (e : Fin 8), s.pwrOk = true → s.tru.group = some g → g.entries[g.issued]? = some e →
    ∃ t : State, exec .entryIssue s = .next t
      ∧ t.now = max s.now (g.time + g.issued * s.tru.spacing * 10)
      ∧ t.tru = { s.tru with
          strobes := (s.tru.table.get e).strobe,
          pulseEnd := if (s.tru.table.get e).strobe = 0 then none else some (t.now + (s.tru.table.get e).exposure * 10),
          group := some { g with issued := g.issued + 1 } }
      ∧ s.offersEntry t g.tick e
      ∧ t.ptk = s.ptk ∧ t.layout = s.layout ∧ t.rnc = s.rnc ∧ t.slm.store = s.slm.store ∧ t.dle.routes = s.dle.routes
      ∧ t.ntu.counters.position = s.ntu.counters.position

/-- Once every entry is issued the group is done: the pointer moves past it, or on from where a boundary set it, and past the skipped
groups. The outputs go low one exposure after an issue. Triggers have ended in DRAINING once no group is in progress, and the rewind
hold clears once no group is in progress and every enabled lane is settled. Where its condition does not hold each of the four changes
nothing (R31, R32, R40, R80, R81; log entries 1 and 2). -/
def Obligations.TriggersFinishAndHoldsClear : Prop :=
  ∀ s : State, s.pwrOk = true →
    (∀ u, s.tru.pulseEnd = some u →
        exec .strobePulseEnd s
          = .next (State.settle { s with now := max s.now u, tru := { s.tru with strobes := 0, pulseEnd := none } } false))
      ∧ (s.tru.pulseEnd = none → exec .strobePulseEnd s = .next s)
      ∧ (∀ g, s.tru.group = some g → g.entries.length ≤ g.issued →
        exec .groupDone s
          = .next (State.settle
              { s with
                now := max s.now (g.time + g.entries.length * s.tru.spacing * 10),
                tru := { s.tru with
                  pointer := skipGroups s.tru.table s.tru.loop s.tru.skipped
                    (if g.pointerSet then s.tru.pointer else afterGroup s.tru.loop g.entries),
                  skipped := 0, group := none } } false))
      ∧ (s.tru.group = none ∨ (∃ g, s.tru.group = some g ∧ g.issued < g.entries.length) → exec .groupDone s = .next s)
      ∧ (s.rnc.runState = .draining ∧ s.tru.group = none →
        exec .triggersEnded s = .next (State.settle { s with frt := { s.frt with triggersEnded := true } } false))
      ∧ (¬ (s.rnc.runState = .draining ∧ s.tru.group = none) → exec .triggersEnded s = .next s)
      ∧ (s.frt.rewindHold = true ∧ s.tru.group = none ∧ s.lanesSettled →
        exec .rewindHoldClear s = .next (State.settle { s with frt := { s.frt with rewindHold := false } } false))
      ∧ (¬ (s.frt.rewindHold = true ∧ s.tru.group = none ∧ s.lanesSettled) → exec .rewindHoldClear s = .next s)

/-- In DRAINING, once triggers have ended and every enabled lane is settled, the close at stop empties the open list, leaves none of its
frames OPEN, returns framing to SEEKING and sets its flag; with nothing open it touches no slot. Where the frames, their slots and their
records agree, a bounded frame that every enabled lane has finished is closed with E − S rows as NORMAL or TRUNCATED, and every other one
SHORT_STOP with the short row count R, or freed where R is not positive; fill runs and degraded lanes follow the row count, and no other
slot or record goes; each one kept short is counted and raises FRAME_SHORT, each one freed is counted dropped EMPTY and raises
FRAME_DROPPED (R76, R77, R82, R94, R95, R96, R175). It is made once. That it changes nothing where its condition fails, that the last
boundary tick is kept, and that a close sets every ready-band count also where it falls, are the model's own (log entries 1, 28 and
34). -/
def Obligations.CloseAtStopEmptiesTheOpenList : Prop :=
  ∀ s : State, s.pwrOk = true →
    (s.rnc.runState = .draining ∧ s.frt.triggersEnded = true ∧ s.lanesSettled ∧ s.rnc.closeAtStopMade = false →
        ∃ t : State, exec .closeAtStop s = .next t
          ∧ t.rnc = { s.rnc with closeAtStopMade := true } ∧ t.frt = { s.frt with openList := [], state := .seeking }
          ∧ (∀ f ∈ s.frt.openList, (t.slot f.slot).state ≠ .opened)
          ∧ (∀ ends, List.Forall₂ (fun f e => e = none ∧ s.passesClose s.ptk.high f
                ∨ ∃ r, e = some r ∧ ¬ s.passesClose s.ptk.high f ∧ s.isShortRows s.ptk.high f r) s.frt.openList ends →
              s.countsShorts t (ends.filterMap id))
          ∧ (s.framesOk → s.onlyCloses t s.frt.openList
              ∧ ∀ f ∈ s.frt.openList,
                (s.passesClose s.ptk.high f → s.fullCloses t f) ∧ (¬ s.passesClose s.ptk.high f → s.shortCloses t .shortStop f))
          ∧ (s.frt.openList = [] → t.slm = s.slm ∧ t.ntu = s.ntu ∧ s.sameDelivery t)
          ∧ t.ptk = s.ptk ∧ t.tru = s.tru ∧ t.lanes = s.lanes ∧ t.layout = s.layout ∧ t.slm.store = s.slm.store)
      ∧ (¬ (s.rnc.runState = .draining ∧ s.frt.triggersEnded = true ∧ s.lanesSettled ∧ s.rnc.closeAtStopMade = false) →
        exec .closeAtStop s = .next s)

/-- A boundary gives its frame the counter's number and start t + f, bounds the newest frame at that start or at its row capacity,
whichever comes first, makes the close test with the high-water mark from before the tick, promotes the lanes in REJOIN and switches to
staged loop bounds; framing is TRACKING from this tick (R29, R30, R50, R59, R68, R71, R76). With 4 frames still open the new frame is
dropped for OPEN_LIMIT; otherwise it joins the open list in the lowest FREE slot, or, with none FREE, under DROP_OLDEST in the evictable
slot of lowest allocation number, which is evicted and counted, and with none to take it is dropped for NO_SLOT; each drop is counted by
its reason and raised. An opened frame takes the next allocation number, the geometry of the records in force, a cleared record otherwise,
with every row UNRESOLVED and every ready-band count 0, and each enabled route that selects its number a PENDING record and a place among
the outstanding routes (R69, R70, R88, R90, R91, R92, R109, R116, R124). That the close test takes the high-water mark from before the
tick is log entry 20; S and E are not cut to 48 bits (log entry 32). -/
def Obligations.BoundariesOpenTheNextFrame : Prop :=
  ∀ (s : State) (tick : Int) (kind : BoundaryKind),
    let t := s.takeBoundary tick kind
    let start := tick + (s.frt.record.offset : Int)
    let v := s.boundNewest start
    let u := v.closeTest (tick - 1)
    let selected := fun r : Fin 8 =>
      (s.dle.routes.get r).enable = true ∧ s.frt.counter % (s.dle.routes.get r).stride = (s.dle.routes.get r).phase
    t.frt.counter = (s.frt.counter + 1) % 4294967296 ∧ t.frt.lastBoundary = some tick ∧ t.frt.state = .tracking
      ∧ t.frt.record = s.frt.record ∧ t.frt.capacity = s.frt.capacity ∧ t.frt.rewindHold = s.frt.rewindHold
      ∧ t.ptk = s.ptk ∧ t.rnc = s.rnc ∧ t.layout = s.layout ∧ t.slm.store = s.slm.store
      ∧ (∀ l, t.lanes.get l =
          { s.lanes.get l with state := if (s.lanes.get l).state = .rejoin then .active else (s.lanes.get l).state })
      ∧ t.tru.loop = s.tru.staged.getD s.tru.loop ∧ t.tru.staged = none
      ∧ (s.tru.staged.isSome ∨ s.frt.state = .seeking → t.tru.pointer = t.tru.loop.first ∧ t.tru.skipped = 0)
      ∧ (s.tru.staged = none → s.frt.state = .tracking → t.tru = s.tru)
      ∧ ∀ k, (∀ f ∈ (s.frt.boundedAt start).take k, s.passesClose (tick - 1) f) →
          (∀ f, (s.frt.boundedAt start)[k]? = some f → ¬ s.passesClose (tick - 1) f) →
          let left := (s.frt.boundedAt start).drop k
          let dropped :=
            t.frt.openList = left ∧ t.slm = u.slm ∧ t.slm.allocCounter = s.slm.allocCounter
              ∧ t.ntu.counters.frames.opened = s.ntu.counters.frames.opened
              ∧ t.ntu.counters.frames.evicted = s.ntu.counters.frames.evicted ∧ maskHas t.ntu.pending .frameDropped = true
          let opened := fun i =>
            t.frt.openList = left ++ [{ number := s.frt.counter, slot := i, start := start, stop := none, truncated := false }]
              ∧ t.slm.allocCounter = s.slm.allocCounter + 1
              ∧ t.ntu.counters.frames.opened = min 4294967295 (s.ntu.counters.frames.opened + 1)
              ∧ t.ntu.counters.frames.droppedOpenLimit = s.ntu.counters.frames.droppedOpenLimit
              ∧ t.ntu.counters.frames.droppedNoSlot = s.ntu.counters.frames.droppedNoSlot
              ∧ t.slot i =
                  { state := .opened, alloc := t.slm.allocCounter, frame := s.frt.counter, start := start, stop := none,
                    rowCount := none, kind := kind, closeReason := none, loop := t.tru.loop, geometry := (t.slot i).geometry,
                    outstanding := (t.slot i).outstanding, degraded := [], retain := false, releasePending := false,
                    pendingRereads := 0, fillRuns := [], overflow := false, marks := [], ready := (t.slot i).ready }
              ∧ t.isGeometry (t.slot i).geometry ∧ (t.slot i).ready.closed = false
              ∧ (∀ side, (t.slot i).ready.counts side =
                  if ∃ n ∈ (t.slot i).geometry.layers, layerSide n = side then
                    List.replicate ((t.slot i).geometry.columns side) 0 else [])
              ∧ (∀ j, j ≠ i → t.slot j = u.slot j)
              ∧ (∀ r, r ∈ (t.slot i).outstanding ↔ selected r)
              ∧ ∀ r, selected r → (t.dle.records.get r).getLast? = some
                  { slot := i, alloc := t.slm.allocCounter, state := .pending, plan := none, opening := none,
                    cursor := { band := 0, index := 0, row := 0 }, tileOpen := false, span := none, revoke := false }
          let noneFree := ∀ x ∈ u.slm.slots, x.state ≠ .free
          u.frt.openList = left
            ∧ (s.framesOk →
              (∀ f ∈ s.frt.boundedAt start, v.slot f.slot = { s.slot f.slot with stop := f.stop })
                ∧ (∀ f ∈ (s.frt.boundedAt start).take k, v.fullCloses u f) ∧ v.onlyCloses u ((s.frt.boundedAt start).take k))
            ∧ (4 ≤ left.length → dropped
              ∧ t.ntu.counters.frames.droppedOpenLimit = min 4294967295 (s.ntu.counters.frames.droppedOpenLimit + 1)
              ∧ t.ntu.counters.frames.droppedNoSlot = s.ntu.counters.frames.droppedNoSlot)
            ∧ (∀ i, left.length < 4 → i < u.slm.slots.length → (u.slot i).state = .free → (∀ j, j < i → (u.slot j).state ≠ .free) →
              opened i ∧ t.ntu.counters.frames.evicted = s.ntu.counters.frames.evicted)
            ∧ (left.length < 4 → noneFree → (s.slm.record.policy = .dropNew ∨ ∀ i, i < u.slm.slots.length → ¬ u.mayEvict i) →
              dropped ∧ t.ntu.counters.frames.droppedOpenLimit = s.ntu.counters.frames.droppedOpenLimit
                ∧ t.ntu.counters.frames.droppedNoSlot = min 4294967295 (s.ntu.counters.frames.droppedNoSlot + 1))
            ∧ ∀ i, left.length < 4 → noneFree → s.slm.record.policy = .dropOldest → i < u.slm.slots.length → u.mayEvict i →
              (∀ j, j < u.slm.slots.length → u.mayEvict j → j ≠ i → (u.slot i).alloc < (u.slot j).alloc) →
              opened i ∧ t.ntu.counters.frames.evicted = min 4294967295 (s.ntu.counters.frames.evicted + 1)
                ∧ maskHas t.ntu.pending .evicted = true

/-- In RUNNING a tick with c index edges brings what the rules say for the framing state, the mode, the rewind hold and the ticks since the
last boundary: a boundary of a kind or none, and a number of spurious edges, which are counted; a SYNTH boundary is counted and raises
INDEX_SYNTH. A tick with no boundary that finds framing TRACKING and reaches the newest frame's S + row capacity bounds that frame there,
flagged and counted truncated. With framing then TRACKING an idle Trigger Unit issues the group at the pointer, its first entry at once to
every lane, and a busy one counts an overspeed tick and one more skipped group, up to 65,535 and from 0 where the boundary took framing
from SEEKING or applied staged bounds, and fills the row at t − D of every plane of the plane set OVERSPEED on an ACTIVE lane, REJOIN on
one in REJOIN and LANE_DOWN on a DOWN one; SEEKING issues nothing. In DRAINING a tick is not judged and issues nothing (R29, R30, R31, R33,
R36, R37, R67, R72, R73, R74, R75, R93, R102). That the unit is busy until GROUP_DONE is taken is log entry 26. -/
def Obligations.TicksAreJudgedAndDecided : Prop :=
  (∀ (f : Frt) (tick : Int) (c : Nat),
      (f.state = .seeking → f.record.mode = .indexed →
          f.judge tick c = if c = 0 then (none, 0) else if f.rewindHold then (none, c) else (some .index, c - 1))
        ∧ (f.state = .seeking → f.record.mode = .fixed → f.judge tick c = if f.rewindHold then (none, 0) else (some .fixed, 0))
        ∧ ∀ b, f.state = .tracking → f.lastBoundary = some b →
          (f.record.mode = .indexed → 1 ≤ c → tick - b < (f.record.nominal : Int) - f.record.tolerance → f.judge tick c = (none, c))
            ∧ (f.record.mode = .indexed → 1 ≤ c → (f.record.nominal : Int) - f.record.tolerance ≤ tick - b →
                f.judge tick c = (some .index, c - 1))
            ∧ (f.record.mode = .indexed → c = 0 → tick - b = (f.record.nominal : Int) + f.record.tolerance →
                f.judge tick c = (some .synth, 0))
            ∧ (f.record.mode = .indexed → c = 0 → tick - b ≠ (f.record.nominal : Int) + f.record.tolerance →
                f.judge tick c = (none, 0))
            ∧ (f.record.mode = .fixed → f.judge tick c = if tick - b = f.record.nominal then (some .fixed, 0) else (none, 0)))
    ∧ (∀ (s : State) (line : EncLine) (t : State), s.pwrOk = true → s.ptk.countForward line = true →
      s.ptk.scale.pitch ≤ s.ptk.acc + s.ptk.scale.step → s.ptk.high < s.ptk.tick + 1 → s.ptk.tick + 1 ≤ 140737488355327 →
      exec (.count line) s = .next t →
        (s.rnc.runState = .running →
            let judged := s.frt.judge (s.ptk.tick + 1) s.ptk.pendingEdges
            let restarts := judged.1 ≠ none ∧ (s.tru.staged.isSome ∨ s.frt.state = .seeking)
            (judged.1 = none → t.frt.counter = s.frt.counter ∧ t.frt.state = s.frt.state ∧ t.frt.lastBoundary = s.frt.lastBoundary)
              ∧ (judged.1 ≠ none → t.frt.counter = (s.frt.counter + 1) % 4294967296 ∧ t.frt.state = .tracking
                  ∧ t.frt.lastBoundary = some (s.ptk.tick + 1))
              ∧ (judged.2 = 0 → t.ntu.counters.position.spuriousIndex = s.ntu.counters.position.spuriousIndex)
              ∧ (judged.1 = some .synth → maskHas t.ntu.pending .indexSynth = true
                  ∧ t.ntu.counters.position.synthesisedIndex = min 4294967295 (s.ntu.counters.position.synthesisedIndex + 1))
              ∧ (judged.1 ≠ some .synth →
                  t.ntu.counters.position.synthesisedIndex = s.ntu.counters.position.synthesisedIndex)
              ∧ (0 < judged.2 → t.ntu.counters.position.spuriousIndex
                    = min 4294967295 (s.ntu.counters.position.spuriousIndex + judged.2)
                  ∧ maskHas t.ntu.pending .indexSpurious = true)
              ∧ (t.frt.state = .tracking → s.tru.group = none →
                  t.tru.group.map (fun g => (g.tick, g.time, g.issued)) = some (s.ptk.tick + 1, s.now, 1)
                    ∧ t.tru.group.map (fun g => g.entries)
                      = some (groupAt s.tru.table (if restarts then t.tru.loop.first else s.tru.pointer))
                    ∧ t.ntu.counters.position.overspeedTicks = s.ntu.counters.position.overspeedTicks)
              ∧ (∀ g, t.frt.state = .tracking → s.tru.group = some g →
                  t.tru.group.map (fun h => (h.tick, h.time, h.entries, h.issued)) = some (g.tick, g.time, g.entries, g.issued)
                    ∧ t.tru.skipped = min 65535 ((if restarts then 0 else s.tru.skipped) + 1)
                    ∧ t.lanes.map Lane.queue = s.lanes.map Lane.queue ∧ t.tru.strobes = s.tru.strobes
                    ∧ t.ntu.counters.position.overspeedTicks = min 4294967295 (s.ntu.counters.position.overspeedTicks + 1)
                    ∧ maskHas t.ntu.pending .overspeed = true)
              ∧ (t.frt.state = .seeking → t.tru = s.tru ∧ t.lanes = s.lanes))
          ∧ (s.rnc.runState = .draining → t.tru = s.tru ∧ t.lanes = s.lanes ∧ t.frt.counter = s.frt.counter
              ∧ t.frt.state = s.frt.state ∧ t.frt.lastBoundary = s.frt.lastBoundary))
    ∧ (∀ (s : State) (tick : Int) (edges : Nat), s.rnc.runState = .running → (s.frt.judge tick edges).1 = none →
      let t := s.judgeTick tick edges
      let reaches := fun f : OpenFrame => f.stop = none ∧ f.start + (s.frt.capacity : Int) ≤ tick
      (∀ f, s.frt.state = .tracking → s.frt.openList.getLast? = some f → reaches f → f.slot < s.slm.slots.length →
          let e := f.start + (s.frt.capacity : Int)
          t.frt = { s.frt with openList := s.frt.openList.dropLast ++ [{ f with stop := some e, truncated := true }] }
            ∧ t.slot f.slot = { s.slot f.slot with stop := some e } ∧ (∀ i, i ≠ f.slot → t.slot i = s.slot i)
            ∧ t.ntu.counters.frames = { s.ntu.counters.frames with
                truncated := min 4294967295 (s.ntu.counters.frames.truncated + 1) })
        ∧ (s.frt.state = .seeking ∨ (∀ f, s.frt.openList.getLast? = some f → ¬ reaches f) →
          t.frt = s.frt ∧ t.slm = s.slm ∧ t.ntu.counters.frames = s.ntu.counters.frames))
    ∧ ∀ (s : State) (tick : Int), s.rnc.runState = .running → s.frt.state = .tracking →
      let t := s.decideTick tick
      (∀ e es, s.tru.group = none → groupAt s.tru.table s.tru.pointer = e :: es → s.offersEntry t tick e)
        ∧ ∀ g, s.tru.group = some g → ∀ (l : Fin 8) (k : Fin 4),
          let n := s.lanes.get l
          (s.tru.planeSet.getLsbD k.val = true →
              (n.state = .active → s.fills t l k (tick - (n.record.offset : Int)) .overspeed)
                ∧ (n.state = .rejoin → s.fills t l k (tick - (n.record.offset : Int)) .rejoin)
                ∧ (n.state = .down → s.fills t l k (tick - (n.record.offset : Int)) .laneDown))
            ∧ (n.state = .ready ∨ n.state = .disabled → s.keepsMarks t l)

/-! ## Camera lanes -/

/-- A link-up report sets the link state, and takes a lane in DOWN to READY in CONFIG or to REJOIN in a run, with LANE_UP. A link-loss
report clears it, and takes a lane in READY, ACTIVE or REJOIN to DOWN with no record and no placement left, with LANE_DOWN; the row of
each record it loses without the rejoin flag, and of each placement, is filled LANE_DOWN where it had no mark; the next tag, the lane
counters and the other lanes stand (R48, R49, R58, R100, R102). -/
def Obligations.LaneLinksMoveTheLane : Prop :=
  ∀ (l : Fin 8) (s : State), s.pwrOk = true →
    (∃ t : State, exec (.laneLinkUp l) s = .next t
        ∧ t.lanes.get l =
            { s.lanes.get l with
              linkUp := true,
              state :=
                if (s.lanes.get l).linkUp = false ∧ (s.lanes.get l).state = .down then
                  (if s.rnc.runState = .config then .ready else .rejoin)
                else (s.lanes.get l).state }
        ∧ (∀ m, m ≠ l → t.lanes.get m = s.lanes.get m)
        ∧ ((s.lanes.get l).linkUp = false → (s.lanes.get l).state = .down → maskHas t.ntu.pending .laneUp = true)
        ∧ ((s.lanes.get l).linkUp = true ∨ (s.lanes.get l).state ≠ .down → t.ntu = s.ntu)
        ∧ t.ntu.counters = s.ntu.counters ∧ t.ptk = s.ptk ∧ t.tru = s.tru ∧ t.frt = s.frt ∧ t.slm = s.slm ∧ t.layout = s.layout
        ∧ t.rnc = s.rnc ∧ s.sameDelivery t)
      ∧ ∃ t : State, exec (.laneLinkLoss l) s = .next t
        ∧ (∀ m, m ≠ l → t.lanes.get m = s.lanes.get m)
        ∧ ((s.lanes.get l).state = .disabled ∨ (s.lanes.get l).state = .down →
            t.lanes.get l = { s.lanes.get l with linkUp := false } ∧ t.ntu = s.ntu ∧ t.frt = s.frt ∧ t.slm = s.slm
              ∧ s.sameDelivery t)
        ∧ ((s.lanes.get l).state = .ready ∨ (s.lanes.get l).state = .active ∨ (s.lanes.get l).state = .rejoin →
            t.lanes.get l = { s.lanes.get l with linkUp := false, state := .down, queue := [], placements := [] }
              ∧ maskHas t.ntu.pending .laneDown = true
              ∧ (∀ q ∈ (s.lanes.get l).queue, q.rejoin = false →
                s.fills t l q.plane (q.tick - ((s.lanes.get l).record.offset : Int)) .laneDown)
              ∧ ∀ y ∈ (s.lanes.get l).placements, s.fills t l y.plane y.position .laneDown)
        ∧ t.ntu.counters.lanes = s.ntu.counters.lanes ∧ t.ptk = s.ptk ∧ t.tru = s.tru ∧ t.layout = s.layout ∧ t.rnc = s.rnc
        ∧ t.slm.store = s.slm.store

/-- A packet on a lane whose header fails or whose kind is not LINE is one packet error; a LINE that finds both line buffers occupied
is one overrun; a LINE whose tag is not in the trigger queue is one stray. None changes a lane, a record or a mark: the frames, slots and
delivery records stand but for what the tests of lane progress close, free or find ready (R51, R52, R53). A packet cut within its header
fails it, and a received packet, after which those tests are made, is one step (log entry 6). -/
def Obligations.RefusedLinesAreOnlyCounted : Prop :=
  ∀ (l : Fin 8) (bytes : List Byte) (s : State), s.pwrOk = true →
    ∃ t : State, exec (.lanePacketReceived l bytes) s = .next t ∧
      let untouched := t.lanes = s.lanes ∧ t.frt = s.progressed.frt ∧ t.slm = s.progressed.slm ∧ s.progressed.sameDelivery t
        ∧ ∀ i, (t.slot i).state ≠ .free → (t.slot i).marks = (s.slot i).marks
      t.ptk = s.ptk ∧ t.tru = s.tru ∧ t.layout = s.layout ∧ t.rnc = s.rnc ∧ t.slm.store = s.slm.store ∧ t.now = s.now
      ∧ (∀ m, m ≠ l → t.lanes.get m = s.lanes.get m ∧ t.ntu.counters.lanes.get m = s.ntu.counters.lanes.get m)
      ∧ ((readHeader bytes = none ∨ ∃ h, readHeader bytes = some h ∧ h.kind ≠ 0x48) →
          untouched ∧ t.ntu.counters.lanes.get l =
            { s.ntu.counters.lanes.get l with packetErrors := min 4294967295 ((s.ntu.counters.lanes.get l).packetErrors + 1) })
      ∧ (∀ h, readHeader bytes = some h → h.kind = 0x48 → 2 ≤ (s.lanes.get l).placements.length →
          untouched ∧ t.ntu.counters.lanes.get l =
            { s.ntu.counters.lanes.get l with overrun := min 4294967295 ((s.ntu.counters.lanes.get l).overrun + 1) })
      ∧ (∀ h, readHeader bytes = some h → h.kind = 0x48 → (s.lanes.get l).placements.length < 2 →
          ((s.lanes.get l).queue = [] ∨ ∃ q qs, (s.lanes.get l).queue = q :: qs
              ∧ (s.lanes.get l).queue.length ≤ (h.tag + 65536 - q.tag % 65536) % 65536) →
          untouched ∧ t.ntu.counters.lanes.get l =
            { s.ntu.counters.lanes.get l with stray := min 4294967295 ((s.ntu.counters.lanes.get l).stray + 1) })

/-- A LINE takes the record its tag names, and the records ahead of it are lost, each without the rejoin flag with its row filled LOST. A
Stream byte that is not the record's entry, or a failed payload check, is one CHECK, with the row filled CHECK unless the record has the
rejoin flag; a record with that flag makes no placement; any other line joins the placements with its plane and position, its bytes the
first N, 16,384 at most, of the payload, padded to N with the fill value, and its place the row of the frame that keeps its position where
that row has no mark, and otherwise none (R53, R54, R55, R56, R58, R100, R101, R102). That placements first in line that no frame keeps
complete in the same step is log entry 16, from R111. -/
def Obligations.LinesTakeTheirRecords : Prop :=
  ∀ (l : Fin 8) (bytes : List Byte) (s : State) (h : Header) (q : TrigRecord) (oldest : TrigRecord) (d : Nat), s.pwrOk = true →
    readHeader bytes = some h → h.kind = 0x48 → (s.lanes.get l).placements.length < 2 →
    (s.lanes.get l).queue.head? = some oldest → d = (h.tag + 65536 - oldest.tag % 65536) % 65536 →
    (s.lanes.get l).queue[d]? = some q →
      ∃ t : State, exec (.lanePacketReceived l bytes) s = .next t
        ∧ (t.lanes.get l).queue = (s.lanes.get l).queue.drop (d + 1)
        ∧ (t.lanes.get l).nextTag = (s.lanes.get l).nextTag ∧ (t.lanes.get l).state = (s.lanes.get l).state
        ∧ (∀ m, m ≠ l → t.lanes.get m = s.lanes.get m)
        ∧ ((s.ntu.counters.lanes.get l).lost + d ≤ 4294967295 →
            (t.ntu.counters.lanes.get l).lost = (s.ntu.counters.lanes.get l).lost + d)
        ∧ (∀ x ∈ (s.lanes.get l).queue.take d, x.rejoin = false →
            s.fills t l x.plane (x.tick - ((s.lanes.get l).record.offset : Int)) .lost)
        ∧ (h.stream ≠ q.entry.val ∨ judgePayload h bytes = .fail →
            (t.lanes.get l).placements = (s.lanes.get l).placements
              ∧ (t.ntu.counters.lanes.get l).check = min 4294967295 ((s.ntu.counters.lanes.get l).check + 1)
              ∧ (q.rejoin = false →
                (∀ x ∈ (s.lanes.get l).queue.take d, x.rejoin = false → x.plane = q.plane → x.tick ≠ q.tick) →
                s.fills t l q.plane (q.tick - ((s.lanes.get l).record.offset : Int)) .check))
        ∧ (h.stream = q.entry.val → judgePayload h bytes ≠ .fail →
            (t.ntu.counters.lanes.get l).check = (s.ntu.counters.lanes.get l).check
              ∧ (q.rejoin = true → (t.lanes.get l).placements = (s.lanes.get l).placements)
              ∧ (q.rejoin = false → ∃ (y : Placement) (k : Nat),
                  (t.lanes.get l).placements = ((s.lanes.get l).placements ++ [y]).drop k
                    ∧ (∀ z ∈ ((s.lanes.get l).placements ++ [y]).take k, z.place = none)
                    ∧ (∀ z, (t.lanes.get l).placements.head? = some z → z.place ≠ none)
                    ∧ y.plane = q.plane ∧ y.tick = q.tick ∧ y.position = q.tick - ((s.lanes.get l).record.offset : Int)
                    ∧ (let bytes := (payloadOf h bytes).take (min 16384 (s.lanes.get l).record.expected)
                      y.pixels = bytes ++ List.replicate ((s.lanes.get l).record.expected - bytes.length) (s.lanes.get l).record.fill)
                    ∧ (s.keeper y.position = none → y.place = none)
                    ∧ (∀ i, s.keeper y.position = some i →
                      let row := (y.position - (s.slot i).start).toNat
                      ((s.slot i).markOf l q.plane row ≠ .unresolved → y.place = none)
                        ∧ ((s.slot i).markOf l q.plane row = .unresolved →
                          (∀ x ∈ (s.lanes.get l).queue.take d, x.rejoin = false → x.plane = q.plane → x.tick ≠ q.tick) →
                          y.place = some { slot := i, row := row, alloc := (s.slot i).alloc }))
                    ∧ (t.ntu.counters.lanes.get l).shortLine =
                        (if h.length < (s.lanes.get l).record.expected then
                          min 4294967295 ((s.ntu.counters.lanes.get l).shortLine + 1) else (s.ntu.counters.lanes.get l).shortLine)
                    ∧ (t.ntu.counters.lanes.get l).longLine =
                        (if (s.lanes.get l).record.expected < h.length then
                          min 4294967295 ((s.ntu.counters.lanes.get l).longLine + 1) else (s.ntu.counters.lanes.get l).longLine)))
        ∧ t.ptk = s.ptk ∧ t.tru = s.tru ∧ t.layout = s.layout ∧ t.rnc = s.rnc ∧ t.slm.store = s.slm.store

/-- At the oldest record's deadline every record at the head of the queue whose deadline has passed leaves it and is counted lost, and,
unless it has the rejoin flag, its row is filled LOST; the rest of the lane and the other lanes stand, and an empty queue has no
deadline (R57, R58, R100, R102). That the expiry comes no sooner than the deadline, and that an expiry asked for on an empty queue changes
nothing, are the model's own (log entries 2 and 1). -/
def Obligations.DeadlinesTakeRecordsFromTheHead : Prop :=
  ∀ (l : Fin 8) (s : State), s.pwrOk = true →
    ((s.lanes.get l).queue = [] → exec (.lineTimeout l) s = .next s)
      ∧ ∀ q qs, (s.lanes.get l).queue = q :: qs → ∃ t : State, exec (.lineTimeout l) s = .next t
        ∧ t.now = max s.now q.deadline
        ∧ t.lanes.get l = { s.lanes.get l with queue := (s.lanes.get l).queue.dropWhile fun x => x.deadline ≤ t.now }
        ∧ (t.lanes.get l).queue.length < (s.lanes.get l).queue.length
        ∧ (∀ x ∈ (s.lanes.get l).queue.takeWhile (fun x => x.deadline ≤ t.now), x.rejoin = false →
            s.fills t l x.plane (x.tick - ((s.lanes.get l).record.offset : Int)) .lost)
        ∧ ((s.ntu.counters.lanes.get l).lost + (s.lanes.get l).queue.length ≤ 4294967295 →
            (t.ntu.counters.lanes.get l).lost + (t.lanes.get l).queue.length
              = (s.ntu.counters.lanes.get l).lost + (s.lanes.get l).queue.length)
        ∧ (∀ m, m ≠ l → t.lanes.get m = s.lanes.get m) ∧ t.ptk = s.ptk ∧ t.tru = s.tru ∧ t.layout = s.layout ∧ t.rnc = s.rnc
        ∧ t.slm.store = s.slm.store ∧ t.dle.routes = s.dle.routes

/-! ## Slots and the line store -/

/-- A completed placement whose slot still holds its allocation number leaves its kept pixels from the address of its row, layer and
column on, and every other byte of the line store as it was; without such a slot no byte changes. Its row becomes WRITTEN where the
slot that keeps its position has no mark there yet, its buffer is freed and the line is counted (R56, R87, R100, R101, R110, R111). -/
def Obligations.PlacementsWriteTheirRow : Prop :=
  ∀ (l : Fin 8) (s : State) (y : Placement) (ys : List Placement), s.pwrOk = true → (s.lanes.get l).placements = y :: ys →
    s.placementOutside l y = false → ∃ t : State, exec (.placementComplete l) s = .next t
      ∧ (t.lanes.get l).placements <:+ ys ∧ (t.lanes.get l).queue = (s.lanes.get l).queue
      ∧ (∀ m, m ≠ l → t.lanes.get m = s.lanes.get m)
      ∧ ((s.ntu.counters.lanes.get l).linesWritten + (s.lanes.get l).placements.length ≤ 4294967295 →
          (t.ntu.counters.lanes.get l).linesWritten + (t.lanes.get l).placements.length
            = (s.ntu.counters.lanes.get l).linesWritten + (s.lanes.get l).placements.length)
      ∧ (∀ pl, y.place = some pl → s.stillHolds pl = true → ∀ a,
          (∀ i b, ((s.lanes.get l).record.kept y.pixels)[i]? = some b → a = s.lineAddress l y.plane pl + i → t.slm.store.read a = b)
            ∧ (a < s.lineAddress l y.plane pl
                ∨ s.lineAddress l y.plane pl + ((s.lanes.get l).record.kept y.pixels).length ≤ a →
              t.slm.store.read a = s.slm.store.read a))
      ∧ ((y.place = none ∨ ∃ pl, y.place = some pl ∧ s.stillHolds pl = false) → t.slm.store = s.slm.store)
      ∧ (∀ pl i, y.place = some pl → s.stillHolds pl = true → s.keeper y.position = some i →
          (s.slot i).markOf l y.plane (y.position - (s.slot i).start).toNat = .unresolved →
          (t.slot i).state ≠ .free →
          (t.slot i).markOf l y.plane (y.position - (s.slot i).start).toNat = .written)
      ∧ t.ptk = s.ptk ∧ t.tru = s.tru ∧ t.layout = s.layout ∧ t.rnc = s.rnc ∧ t.dle.routes = s.dle.routes

/-- Every read of a column covered by one lane gives the byte of the row itself when it is WRITTEN, and when it is FILLED the byte of
the highest earlier WRITTEN row of the lane and plane, or the lane's fill value when there is none; a column no lane covers reads 0
(R103, R113). A TILE packet's payload is the segment header of 12.4, with fill present where a lane that meets the tile's columns has a
FILLED mark at one of its rows and gap present where no lane covers one of its columns, and then its rows whole, ascending, each column
as it is read (R113, R114, R133, R134, R147). -/
def Obligations.ReadsSubstituteFilledRows : Prop :=
  (∀ (s : State) (i layer row col : Nat) (x : Slot),
    ((∀ y ∈ x.geometry.lanes, y.side = layerSide layer → ¬ (y.first ≤ col ∧ col ≤ y.last)) → s.readColumn i x layer row col = 0)
      ∧ ∀ y ∈ x.geometry.lanes, y.side = layerSide layer → y.first ≤ col → col ≤ y.last →
        (∀ z ∈ x.geometry.lanes, z.side = layerSide layer → z.first ≤ col → col ≤ z.last → z = y) →
          (x.markOf y.lane (planeOfLayer layer) row = .written →
              s.readColumn i x layer row col = s.slm.store.read (s.rowAddress i x.geometry row layer + col))
            ∧ (∀ held, x.markOf y.lane (planeOfLayer layer) row = .filled → held < row →
                x.markOf y.lane (planeOfLayer layer) held = .written →
                (∀ r, held < r → r < row → x.markOf y.lane (planeOfLayer layer) r ≠ .written) →
                s.readColumn i x layer row col = s.slm.store.read (s.rowAddress i x.geometry held layer + col))
            ∧ (x.markOf y.lane (planeOfLayer layer) row = .filled →
                (∀ r, r < row → x.markOf y.lane (planeOfLayer layer) r ≠ .written) →
                s.readColumn i x layer row col = y.fill))
    ∧ ∀ (s : State) (i layer col band firstRow rows : Nat) (last reread : Bool),
      let x := s.slot i
      let first := col * x.geometry.tileWidth
      let stop := min ((col + 1) * x.geometry.tileWidth) (x.geometry.width (layerSide layer))
      let bytes := s.segmentPayload i layer col band firstRow rows last reread
      bytes.length = 16 + rows * (stop - first)
        ∧ bytesAt bytes 0 14 = le 4 x.frame ++ le 1 layer ++ le 1 col ++ le 2 band ++ le 2 firstRow ++ le 2 rows ++ le 2 (stop - first)
        ∧ byteAt bytes 14 < 16 ∧ (byteAt bytes 14).testBit 0 = last ∧ (byteAt bytes 14).testBit 3 = reread ∧ byteAt bytes 15 = 0
        ∧ ((byteAt bytes 14).testBit 1 = true ↔
            ∃ n y, n < rows ∧ y ∈ x.geometry.lanes ∧ y.side = layerSide layer ∧ y.first ≤ stop - 1 ∧ first ≤ y.last
              ∧ x.markOf y.lane (planeOfLayer layer) (firstRow + n) = .filled)
        ∧ ((byteAt bytes 14).testBit 2 = true ↔
            ∃ c, first ≤ c ∧ c < stop ∧ ∀ y ∈ x.geometry.lanes, y.side = layerSide layer → ¬ (y.first ≤ c ∧ c ≤ y.last))
        ∧ ∀ n c, n < rows → c < stop - first →
            bytes[16 + n * (stop - first) + c]? = some (s.readColumn i x layer (firstRow + n) (first + c))

/-! ## Delivery -/

/-- The lead used is the lead column clamped into the clamped range. The column order is r_0 XOR i for i from 0 up to the smallest
power of two not below the range's width m, numbers of m or more being passed over: it holds each column of the range exactly once,
begins at the lead used, and ascends when the lead used is the first column (R128). -/
def Obligations.ColumnOrderIsAPermutationFromTheLead : Prop :=
  (∀ (r : RouteRecord) (g : Geometry), (planOf r g).layers ≠ [] → r.colFirst ≤ r.colLast →
      (planOf r g).lead = max (planOf r g).colFirst (min r.lead (planOf r g).colLast))
    ∧ ∀ p : Plan, p.colFirst ≤ p.lead → p.lead ≤ p.colLast → p.colLast ≤ 127 →
      p.columnOrder.Nodup ∧ (∀ c, c ∈ p.columnOrder ↔ p.colFirst ≤ c ∧ c ≤ p.colLast) ∧ p.columnOrder.head? = some p.lead
        ∧ (p.lead = p.colFirst → p.columnOrder = (List.range (p.colLast - p.colFirst + 1)).map (p.colFirst + ·))
        ∧ ∃ e, p.colLast - p.colFirst + 1 ≤ 2 ^ e ∧ (∀ f, p.colLast - p.colFirst + 1 ≤ 2 ^ f → e ≤ f)
          ∧ p.columnOrder = (((List.range (2 ^ e)).map fun i => (p.lead - p.colFirst) ^^^ i).filter
              (· < p.colLast - p.colFirst + 1)).map (p.colFirst + ·)

/-! ## Host ports -/

/-- A link-up report takes a port that is DOWN to UP, and its reread queue starts empty: the entries that REREADs taken while it was DOWN
left there are dropped as at a loss (log entry 36). A link loss takes a port that is not DOWN to DOWN: what it transmits and its tile are
cut, its notices and timers go, its rereads are dropped, its routes' OPENED records are no longer OPENED, and its inbound buffer, replies,
records and pointer stay; its routes' PENDING records lose their plan, their formed FRAME_OPEN and their revoke flag, and in DRAINING leave
that state too. Where the frames, their slots and their records agree, the OPENED records become ABORTED and each is counted, in DRAINING
the PENDING ones SKIPPED, those routes leave the outstanding routes and each reread dropped the slot's pending rereads, a CLOSED slot with
none left is freed, or HELD if retained, a HELD one with release pending is freed, and the records that leave are those of slots that have
become FREE. Otherwise neither report changes anything (R94, R99, R125, R148, R149, R150, R153, R154). -/
def Obligations.PortLinksMoveThePort : Prop :=
  ∀ (p : Port) (s : State), s.pwrOk = true →
    let dropped := fun i => (s.dle.rereads.get p).countP fun e => e.slot = i
    ((s.ports.get p).link = .down → exec (.portLinkLoss p) s = .next s
          ∧ ∃ t : State, exec (.portLinkUp p) s = .next (t.settle false)
            ∧ t.ports.get p = { s.ports.get p with link := .up } ∧ (∀ q, q ≠ p → t.ports.get q = s.ports.get q)
            ∧ t.dle.rereads.get p = [] ∧ (∀ q, q ≠ p → t.dle.rereads.get q = s.dle.rereads.get q)
            ∧ (s.dle.rereads.get p = [] → t = s.setPort p fun h => { h with link := .up })
            ∧ (∀ i, dropped i ≤ (s.slot i).pendingRereads →
                t.slot i = (s.slot i).released (s.slot i).outstanding (dropped i))
            ∧ (s.framesOk → ∀ r,
                t.dle.records.get r = (s.dle.records.get r).filter fun d => (t.slot d.slot).state ≠ .free)
            ∧ t.dle.routes = s.dle.routes ∧ t.dle.paused = s.dle.paused ∧ s.sameControl t
            ∧ t.ptk = s.ptk ∧ t.tru = s.tru ∧ t.lanes = s.lanes ∧ t.frt = s.frt ∧ t.layout = s.layout ∧ t.slm.store = s.slm.store)
      ∧ ((s.ports.get p).link ≠ .down → exec (.portLinkUp p) s = .next s
          ∧ ∃ t : State, exec (.portLinkLoss p) s = .next (t.settle false)
            ∧ t.ports.get p =
                { s.ports.get p with
                  link := .down, tx := none, tile := none, notices := [], idleTimer := none, wakeTimer := none,
                  wakeOwed := false }
            ∧ t.dle.rereads.get p = [] ∧ t.dle.routes = s.dle.routes ∧ t.dle.paused = s.dle.paused
            ∧ (∀ r d, d ∈ t.dle.records.get r → (s.dle.routes.get r).port = p → d.state ≠ .opened
                ∧ (s.rnc.runState = .draining → d.state ≠ .pending)
                ∧ (d.state = .pending → d.plan = none ∧ d.opening = none ∧ d.revoke = false))
            ∧ (s.framesOk →
              let ends := fun (r : Fin 8) (d : Delivery) => (s.dle.routes.get r).port = p
                ∧ (d.state = .opened ∨ d.state = .pending ∧ s.rnc.runState = .draining)
              (∀ r, t.dle.records.get r =
                  ((s.dle.records.get r).map fun d =>
                    if (s.dle.routes.get r).port ≠ p then d
                    else if d.state = .opened then
                      { d with state := .aborted, opening := none, revoke := false, tileOpen := false, span := none }
                    else if d.state = .pending then
                      (if s.rnc.runState = .draining then
                        { d with state := .skipped, plan := none, opening := none, revoke := false, tileOpen := false, span := none }
                      else { d with plan := none, opening := none, revoke := false })
                    else d).filter fun d => (t.slot d.slot).state ≠ .free)
                ∧ (let aborted := (indices.map fun r =>
                      if (s.dle.routes.get r).port = p then (s.dle.records.get r).countP fun d => d.state = .opened else 0).sum
                  (t.ntu.counters.ports.get p).abortedFrames =
                    if aborted = 0 then (s.ntu.counters.ports.get p).abortedFrames
                    else min 4294967295 ((s.ntu.counters.ports.get p).abortedFrames + aborted))
                ∧ ∀ i, dropped i ≤ (s.slot i).pendingRereads →
                  t.slot i = (s.slot i).released
                    ((s.slot i).outstanding.filter fun r =>
                      !(s.dle.records.get r).any fun d => d.alloc = (s.slot i).alloc ∧ ends r d) (dropped i))
            ∧ maskHas t.ntu.pending .portDown = true
            ∧ (∀ q, q ≠ p → (t.ports.get q).tx = (s.ports.get q).tx ∧ (t.ports.get q).link = (s.ports.get q).link
                ∧ (t.ports.get q).tile = (s.ports.get q).tile ∧ (t.ports.get q).inbound = (s.ports.get q).inbound
                ∧ (t.ports.get q).replies = (s.ports.get q).replies ∧ t.dle.rereads.get q = s.dle.rereads.get q)
            ∧ t.ptk = s.ptk ∧ t.tru = s.tru ∧ t.lanes = s.lanes ∧ t.frt = s.frt ∧ t.layout = s.layout ∧ t.rnc = s.rnc
            ∧ t.slm.store = s.slm.store)

/-- A packet that arrives on a port is one header error when its header check fails, one command overrun when all 16 places are taken,
and otherwise joins the inbound buffer with its judged payload check, a failed one being counted; each error raises its source. A port
that is DOWN receives nothing (R153, R155, R156). A packet cut within its header fails it, and a received packet is one step (log entry
6). -/
def Obligations.HostPacketsJoinTheInboundBuffer : Prop :=
  ∀ (p : Port) (bytes : List Byte) (s : State), s.pwrOk = true →
    ((s.ports.get p).link = .down → exec (.hostPacketReceived p bytes) s = .next s)
      ∧ ((s.ports.get p).link ≠ .down → ∃ t : State, exec (.hostPacketReceived p bytes) s = .next t
        ∧ s.sameCapture t ∧ s.sameDelivery t ∧ t.rnc = s.rnc ∧ t.now = s.now ∧ t.ntu.enable = s.ntu.enable
        ∧ (∀ q, (t.ports.get q).replies = (s.ports.get q).replies ∧ (t.ports.get q).record = (s.ports.get q).record
            ∧ (q ≠ p → (t.ports.get q).inbound = (s.ports.get q).inbound))
        ∧ (readHeader bytes = none →
            (t.ports.get p).inbound = (s.ports.get p).inbound ∧ maskHas t.ntu.pending .linkErrors = true
              ∧ (t.ntu.counters.ports.get p).headerErrors = min 4294967295 ((s.ntu.counters.ports.get p).headerErrors + 1))
        ∧ (∀ h, readHeader bytes = some h → 16 ≤ (s.ports.get p).inbound.length →
            (t.ports.get p).inbound = (s.ports.get p).inbound ∧ maskHas t.ntu.pending .cmdOverrun = true
              ∧ (t.ntu.counters.ports.get p).commandOverruns = min 4294967295 ((s.ntu.counters.ports.get p).commandOverruns + 1))
        ∧ (∀ h, readHeader bytes = some h → (s.ports.get p).inbound.length < 16 →
            (t.ports.get p).inbound = (s.ports.get p).inbound ++
                [{ kind := h.kind, stream := h.stream, tag := h.tag, length := h.length,
                   payload := (payloadOf h bytes).take 256, check := judgePayload h bytes }]
              ∧ (judgePayload h bytes = .fail → maskHas t.ntu.pending .linkErrors = true
                  ∧ (t.ntu.counters.ports.get p).payloadErrors = min 4294967295 ((s.ntu.counters.ports.get p).payloadErrors + 1))
              ∧ (judgePayload h bytes ≠ .fail → t.ntu = s.ntu)))

/-- At its last byte a packet is counted out with its Length and frees the transmitter. A reply or a notice leaves its queue, the RESET
reply making the command reset due; a FRAME_OPEN makes its record OPENED; a segment moves the cursor on, and its tile's last segment ends
the tile, as any segment does whose record or reread entry a command reset has removed; a TILE_ABORT closes the tile; a FRAME_END makes its
record DONE or REVOKED and takes the route off the slot's outstanding routes, after which a CLOSED slot with none outstanding is freed, or
HELD if retained; a reread's last segment takes its entry off the queue and one from the slot's pending rereads, after which a CLOSED slot
with nothing outstanding is freed, or HELD if retained, and a HELD one is freed where its release is pending, and otherwise stays HELD (R94,
R99, R130, R132, R133, R137, R145, R147, R158, R165, R167, R176). -/
def Obligations.PacketsSentHaveTheirEffect : Prop :=
  ∀ (s : State) (p : Port) (k : Packet), s.pwrOk = true →
    ((s.ports.get p).tx = some { source := .reply, packet := k } →
        ∃ t : State, exec (.replySent p) s = .next (t.settle false) ∧ s.sentBy p k t
          ∧ (t.ports.get p).replies = (s.ports.get p).replies.drop 1 ∧ (t.ports.get p).notices = (s.ports.get p).notices
          ∧ t.dle = s.dle ∧ t.slm = s.slm
          ∧ t.rnc.resetDue = (s.rnc.resetDue || (decide (p = .a) && s.rnc.resetPending && (s.ports.a.replies.drop 1).isEmpty)))
      ∧ (s.ports.a.tx = some { source := .notice, packet := k } →
        ∃ t : State, exec .noticeSent s = .next (t.settle false) ∧ s.sentBy .a k t
          ∧ t.ports.a.notices = s.ports.a.notices.drop 1 ∧ t.ports.a.replies = s.ports.a.replies ∧ t.dle = s.dle ∧ t.slm = s.slm
          ∧ t.rnc = s.rnc)
      ∧ (∀ r alloc d, (s.ports.get p).tx = some { source := .frameOpen r alloc, packet := k } → s.recordOf r alloc = some d →
        ∃ t : State, exec (.frameOpenSent p) s = .next (t.settle false) ∧ s.sentBy p k t
          ∧ t.recordOf r alloc = some { d with state := .opened, opening := none } ∧ t.slm = s.slm ∧ t.rnc = s.rnc
          ∧ (∀ q, q ≠ r → t.dle.records.get q = s.dle.records.get q))
      ∧ (∀ r alloc rows last d plan, (s.ports.get p).tx = some { source := .segment r alloc rows last, packet := k } →
        s.recordOf r alloc = some d → d.plan = some plan →
        ∃ t : State, exec (.tileSegmentSent p) s = .next (t.settle false) ∧ s.sentBy p k t ∧ t.slm = s.slm ∧ t.rnc = s.rnc
          ∧ (∀ q, q ≠ r → t.dle.records.get q = s.dle.records.get q)
          ∧ (last = false → (t.ports.get p).tile = (s.ports.get p).tile
              ∧ t.recordOf r alloc = some { d with tileOpen := true, cursor := { d.cursor with row := d.cursor.row + rows } })
          ∧ (last = true → (t.ports.get p).tile = none
              ∧ t.recordOf r alloc = some
                { d with
                  tileOpen := false, span := none,
                  cursor :=
                    if d.cursor.index + 1 < (plan.bandTiles (s.slot d.slot).geometry).length then
                      { band := d.cursor.band, index := d.cursor.index + 1, row := 0 }
                    else { band := d.cursor.band + 1, index := 0, row := 0 } }))
      ∧ (∀ r alloc rows last, (s.ports.get p).tx = some { source := .segment r alloc rows last, packet := k } →
        s.recordOf r alloc = none →
        ∃ t : State, exec (.tileSegmentSent p) s = .next (t.settle false) ∧ s.sentBy p k t ∧ (t.ports.get p).tile = none
          ∧ t.dle = s.dle ∧ t.slm = s.slm ∧ t.rnc = s.rnc)
      ∧ (∀ alloc rows last, (s.ports.get p).tx = some { source := .reread alloc rows last, packet := k } →
        (∀ e, (s.dle.rereads.get p).head? = some e → e.alloc ≠ alloc) →
        ∃ t : State, exec (.rereadSegmentSent p) s = .next (t.settle false) ∧ s.sentBy p k t ∧ (t.ports.get p).tile = none
          ∧ t.dle = s.dle ∧ t.slm = s.slm ∧ t.rnc = s.rnc)
      ∧ (∀ r alloc d, (s.ports.get p).tx = some { source := .tileAbort r alloc, packet := k } → s.recordOf r alloc = some d →
        ∃ t : State, exec (.tileAbortSent p) s = .next (t.settle false) ∧ s.sentBy p k t ∧ t.slm = s.slm ∧ t.rnc = s.rnc
          ∧ (t.ports.get p).tile = none ∧ t.recordOf r alloc = some { d with tileOpen := false, span := none }
          ∧ (∀ q, q ≠ r → t.dle.records.get q = s.dle.records.get q))
      ∧ (∀ r alloc revoked d, (s.ports.get p).tx = some { source := .frameEnd r alloc revoked, packet := k } →
        s.recordOf r alloc = some d →
        ∃ t : State, exec (.frameEndSent p) s = .next (t.settle false) ∧ s.sentBy p k t ∧ t.rnc = s.rnc ∧ t.slm.store = s.slm.store
          ∧ r ∉ (t.slot d.slot).outstanding
          ∧ (r ∈ (s.slot d.slot).outstanding →
              t.slot d.slot = (s.slot d.slot).released ((s.slot d.slot).outstanding.filter (· ≠ r)) 0)
          ∧ (t.recordOf r alloc = none ∧ (t.slot d.slot).state = .free
              ∨ ∃ e, t.recordOf r alloc = some e ∧ e.state = (if revoked then .revoked else .done) ∧ e.revoke = false))
      ∧ (∀ alloc rows last e es, (s.ports.get p).tx = some { source := .reread alloc rows last, packet := k } →
        s.dle.rereads.get p = e :: es → e.alloc = alloc →
        ∃ t : State, exec (.rereadSegmentSent p) s = .next (t.settle false) ∧ s.sentBy p k t ∧ t.rnc = s.rnc
          ∧ t.slm.store = s.slm.store
          ∧ (last = false → t.dle.rereads.get p = { e with next := e.next + rows, isOpen := true } :: es ∧ t.slm = s.slm)
          ∧ (last = true → t.dle.rereads.get p = es ∧ (t.ports.get p).tile = none
              ∧ (1 ≤ (s.slot e.slot).pendingRereads →
                  t.slot e.slot = (s.slot e.slot).released (s.slot e.slot).outstanding 1)))

/-- A staged port record takes effect once its port has no tile in progress: where the idle timer stands at or beyond the new rest delay
and every other rest condition is met under the new record the port begins a REST at once, and a record that clears rest enable wakes a
RESTING port and owes a wake to one that is transmitting its REST; and the SET_PORT held for it is answered OK in its reserved place
(R158, R162, R163, R164, R168). That with a tile in progress or nothing staged the step changes nothing, the wake for a cleared rest
enable, the judgement before the reply is filled, and that port A begins no REST while a command reset is due, are the model's own (log
entries 1, 15, 38 and 19). -/
def Obligations.StagedRecordsWaitForTheTile : Prop :=
  ∀ (s : State) (p : Port), s.pwrOk = true →
    ((s.ports.get p).staged = none ∨ (s.ports.get p).tile ≠ none → exec (.stagedPortRecord p) s = .next s)
      ∧ ∀ r, (s.ports.get p).staged = some r → (s.ports.get p).tile = none →
        let u := s.setPort p fun h => { h with record := r, staged := none }
        let rests := r.restEnable = true ∧ u.mayRest p ∧ ∃ v, (s.ports.get p).idleTimer = some v ∧ r.restDelay * 100 ≤ s.now - v
        ∃ t : State, exec (.stagedPortRecord p) s = .next (t.settle false)
          ∧ (t.ports.get p).record = r ∧ (t.ports.get p).staged = none ∧ (t.ports.get p).inbound = (s.ports.get p).inbound
          ∧ (rests → (t.ports.get p).wakeOwed = false ∧ (t.ports.get p).tx =
              some { source := .rest, packet := { kind := 0x86, stream := 0x80, tag := 0, payload := [] } })
          ∧ (¬ rests → (t.ports.get p).tx = (s.ports.get p).tx) ∧ (t.ports.get p).notices = (s.ports.get p).notices
          ∧ ((s.ports.get p).link = .resting → r.restEnable = false →
              (t.ports.get p).link = .waking ∧ (t.ports.get p).wakeTimer = some s.now)
          ∧ (∀ k, (s.ports.get p).link ≠ .resting → r.restEnable = false →
              (s.ports.get p).tx = some { source := .rest, packet := k } → (t.ports.get p).wakeOwed = true)
          ∧ ((s.ports.get p).link ≠ .resting ∨ r.restEnable = true → (t.ports.get p).link = (s.ports.get p).link)
          ∧ (∀ c before after, s.rnc.inHand.a = some c → s.rnc.inHand.b = none → byteAt c.payload 0 = portCode p →
              s.ports.a.replies = before ++ none :: after → none ∉ before →
              t.rnc = { s.rnc with inHand := { a := none, b := none } }
                ∧ t.ports.a.replies = before ++ some (replyPacket c .ok []) :: after)
          ∧ s.sameCapture t ∧ t.dle = s.dle ∧ t.ntu = s.ntu ∧ t.now = s.now

/-- The expiry of a running idle timer comes no sooner than the rest delay, and begins a REST where every other rest condition is met. The
wake-lead test is made at a tick handed on and where lane progress has changed, and at no other line packet, lane link loss or count. Work
or a wake-lead test that comes up while the REST is transmitted is kept as a wake owed, whether or not it lasts; at the REST's last byte,
where no wake-lead test is made, the port is WAKING when a wake is owed, work is present or rest enable has been cleared, and otherwise
RESTING; and the wake timer, no sooner than 20 µs after it started, makes a WAKING port UP. An expiry of a timer that does not run changes
nothing (R8, R60, R153, R163, R164). The clock, the wake for a cleared rest enable, what is a change of lane progress, that port A begins no
REST while a command reset is due, the paused routes left out during the REST, and the idle step are the model's own (log entries 2, 15, 18,
19, 41 and 1). -/
def Obligations.PortsRestAndWake : Prop :=
  ∀ (s : State) (p : Port), s.pwrOk = true →
    let comesUp := fun lead : Bool =>
      (s.formOpens p).workPresent p = true ∨ lead = true ∧ (s.formOpens p).leadPresent p ((s.formOpens p).unpaused p) = true
    (∀ u, (s.ports.get p).idleTimer = some u →
        ∃ t : State, exec (.idleTimerExpiry p) s = .next t
          ∧ t.now = max s.now (u + (s.ports.get p).record.restDelay * 100)
          ∧ ((s.formOpens p).mayRest p →
              (t.ports.get p).tx =
                  some { source := .rest, packet := { kind := 0x86, stream := 0x80, tag := 0, payload := [] } }
                ∧ (t.ports.get p).wakeOwed = false ∧ (t.ports.get p).idleTimer = none ∧ (t.ports.get p).link = .up)
          ∧ (¬ (s.formOpens p).mayRest p →
              ∀ k, (t.ports.get p).tx = some { source := .rest, packet := k } → (s.ports.get p).tx = (t.ports.get p).tx)
          ∧ s.sameCapture t ∧ s.sameDelivery t ∧ t.rnc = s.rnc ∧ t.ntu = s.ntu
          ∧ (s.ports.get p).sameQueues (t.ports.get p))
      ∧ ((s.ports.get p).idleTimer = none → exec (.idleTimerExpiry p) s = .next s)
      ∧ (∀ c, ((∃ line, c = .count line) ∨ (∃ l, c = .laneLinkLoss l) ∨ ∃ l bytes, c = .lanePacketReceived l bytes) →
        ∃ (t : State) (lead : Bool), exec c s = .next (t.settle lead)
          ∧ (lead = true ↔ s.movesProgress t
              ∨ (∃ line, c = .count line) ∧ s.rnc.runState ≠ .config ∧ s.ptk.high < t.ptk.high)
          ∧ (t.ports.get p).link = (s.ports.get p).link ∧ (t.ports.get p).wakeOwed = (s.ports.get p).wakeOwed)
      ∧ (∀ k, (s.ports.get p).tx = some { source := .rest, packet := k } → (s.ports.get p).link = .up →
        ∃ t : State, exec (.restSent p) s = .next t
          ∧ (t.ports.get p).tx = none ∧ s.sameCapture t ∧ s.sameDelivery t ∧ t.rnc = s.rnc
          ∧ (s.ports.get p).sameQueues (t.ports.get p)
          ∧ (t.ntu.counters.ports.get p).packetsOut = min 4294967295 ((s.ntu.counters.ports.get p).packetsOut + 1)
          ∧ (((s.ports.get p).wakeOwed = true ∨ comesUp false ∨ (s.ports.get p).record.restEnable = false) →
              (t.ports.get p).link = .waking ∧ (t.ports.get p).wakeTimer = some s.now)
          ∧ ((s.ports.get p).wakeOwed = false → ¬ comesUp false → (s.ports.get p).record.restEnable = true →
              (t.ports.get p).link = .resting))
      ∧ (∀ u, (s.ports.get p).link = .waking → (s.ports.get p).wakeTimer = some u →
        exec (.wakeTimerExpiry p) s
          = .next (State.settle
              (({ s with now := max s.now (u + 2000) } : State).setPort p fun h => { h with link := .up, wakeTimer := none })
              false))
      ∧ ((s.ports.get p).link ≠ .waking ∨ (s.ports.get p).wakeTimer = none → exec (.wakeTimerExpiry p) s = .next s)
      ∧ ∀ k (lead : Bool), (s.ports.get p).tx = some { source := .rest, packet := k } → (s.ports.get p).link = .up →
        (comesUp lead → ((s.settlePort p lead).ports.get p).wakeOwed = true)
          ∧ (¬ comesUp lead → ((s.settlePort p lead).ports.get p).wakeOwed = (s.ports.get p).wakeOwed)

/-! ## What every step keeps -/

/-- Every step keeps the position state in its ranges: A from 0 to below P_l, S_e at most P_l, T at most H, both within 48 bits
(R1, R2, R5, R6, R7, R9, R11). -/
def Obligations.PositionStaysInRange : Prop :=
  ∀ s t : State, s.positionOk → step s = .next t → t.positionOk

/-- Every step keeps every queue within its limit: 64 records and two placements a lane, 4 open frames, 16 inbound packets, 8 replies,
16 notices, 8 rereads a port, 32 fill runs a frame (R52, R53, R69, R102, R146, R156, R157, R182). -/
def Obligations.QueuesKeepTheirLimits : Prop :=
  ∀ s t : State, s.queuesOk → step s = .next t → t.queuesOk

/-- Every step keeps the line store in its canonical form, the model's own (log entry 9), keeps every slot's allocation number at or below
the counter that gives them, and keeps the frames, their slots and their delivery records in agreement: the open list names distinct
OPEN slots that hold its frames; frames in store have allocation numbers of their own, and in CONFIG no slot is OPEN or CLOSED; a route
has one record for a frame, of a frame in store, and while the record is not final the route is among the frame's outstanding routes and
the frame is OPEN or CLOSED; and a route whose FRAME_OPEN is in transmission has its record PENDING (R70, R88, R90, R93, R94, R124,
R125, R130, R144, R153, R171). -/
def Obligations.StoreAndAllocationsStayInOrder : Prop :=
  ∀ s t : State, step s = .next t →
    (s.slm.store.wf → t.slm.store.wf) ∧ (s.allocOk → t.allocOk) ∧ (s.allocOk → s.framesOk → t.framesOk)

/-- A row's mark, once WRITTEN or FILLED, stands unchanged for as long as its slot holds its frame, whatever the step; so a read of the
row gives the same source every time (R100, R103). The premise rules out states that give two frames one allocation number. -/
def Obligations.MarksAreSetOnce : Prop :=
  ∀ (s t : State) (i : Nat) (l : Fin 8) (k : Fin 4) (row : Nat), s.allocOk → step s = .next t →
    (s.slot i).alloc ≠ 0 → (t.slot i).alloc = (s.slot i).alloc → (s.slot i).markOf l k row ≠ .unresolved →
      (t.slot i).markOf l k row = (s.slot i).markOf l k row

/-- No step but a reset moves H or T other than so: H rises to T + 1 by a count that moves T there, which is a rise of one where T is at
most H, and a RUN_START sets it to 0, up or down; H falls to T by a count that counts and raises a rewind, once the debt has reached a
reverse limit that is not 0; T moves by one in a count, and a RUN_START sets it to 0 (R5, R6, R7, R11, R23). -/
def Obligations.HighWaterMarkFallsOnlyByRewindOrRestart : Prop :=
  ∀ (c : Instr) (s t : State), exec c s = .next t → c.isReset = false →
    (s.ptk.high < t.ptk.high → (∃ line, c = .count line) ∧ t.ptk.high = t.ptk.tick ∧ t.ptk.tick = s.ptk.tick + 1
          ∧ (s.ptk.tick ≤ s.ptk.high → t.ptk.high = s.ptk.high + 1)
        ∨ c = .runStart .a ∧ t.ptk.high = 0)
      ∧ (t.ptk.high < s.ptk.high →
        (∃ line, c = .count line) ∧ t.ptk.high = t.ptk.tick ∧ maskHas t.ntu.pending .rewind = true
            ∧ t.ntu.counters.position.rewinds = min 4294967295 (s.ntu.counters.position.rewinds + 1)
            ∧ s.ptk.scale.reverseLimit ≠ 0 ∧ (s.ptk.scale.reverseLimit : Int) ≤ s.ptk.high - t.ptk.high
          ∨ c = .runStart .a ∧ t.ptk.high = 0)
      ∧ (t.ptk.tick ≠ s.ptk.tick →
        (∃ line, c = .count line) ∧ (t.ptk.tick = s.ptk.tick + 1 ∨ t.ptk.tick = s.ptk.tick - 1)
          ∨ c = .runStart .a ∧ t.ptk.tick = 0)

/-- The run state changes by an accepted RUN_START from CONFIG to RUNNING, by an accepted RUN_STOP from RUNNING to DRAINING, by the end
of draining to CONFIG, and by a reset to CONFIG, and by nothing else; the first three raise RUN_STATE (R171, R176, R177). -/
def Obligations.RunStateMovesOnlyAsTheTableSays : Prop :=
  ∀ (c : Instr) (s t : State), exec c s = .next t → t.rnc.runState ≠ s.rnc.runState →
    (c = .runStart .a ∧ s.rnc.runState = .config ∧ t.rnc.runState = .running ∧ maskHas t.ntu.pending .runState = true)
      ∨ (c = .runStop .a ∧ s.rnc.runState = .running ∧ t.rnc.runState = .draining ∧ maskHas t.ntu.pending .runState = true)
      ∨ (c = .endOfDraining ∧ s.rnc.runState = .draining ∧ t.rnc.runState = .config ∧ maskHas t.ntu.pending .runState = true)
      ∨ (c.isReset = true ∧ t.rnc.runState = .config)

/-- In a run no step but a reset changes a setup record, port records, the notice record, lead columns and loop bounds apart; and in
every run state a command from port B changes none of them, nor the run state, the loop bounds, the port records, the enable flags,
the routes of port A or their paused bits (R1, R24, R45, R65, R86, R107, R122, R157). -/
def Obligations.SetupIsFixedInARunAndOutOfPortBsReach : Prop :=
  (∀ (c : Instr) (s t : State), exec c s = .next t → c.isReset = false → s.rnc.runState ≠ .config → s.sameSetup t)
    ∧ ∀ (c : Instr) (code : Nat) (s t : State), exec c s = .next t → c.command = some (.b, code) →
      s.sameSetup t ∧ t.rnc.runState = s.rnc.runState ∧ t.rnc.resetPending = s.rnc.resetPending ∧ t.tru.loop = s.tru.loop
        ∧ t.tru.staged = s.tru.staged ∧ t.ntu.enable = s.ntu.enable
        ∧ (∀ p, (t.ports.get p).record = (s.ports.get p).record ∧ (t.ports.get p).staged = (s.ports.get p).staged)
        ∧ ∀ r, (s.dle.routes.get r).port = .a →
          t.dle.routes.get r = s.dle.routes.get r ∧ t.dle.paused.getLsbD r.val = s.dle.paused.getLsbD r.val

/-- The state after reset meets every invariant above. -/
def Obligations.ResetMeetsTheInvariants : Prop :=
  State.reset.positionOk ∧ State.reset.queuesOk ∧ State.reset.slm.store.wf ∧ State.reset.allocOk ∧ State.reset.framesOk
end

