-- ==== Sys2Proof/Laws/State.lean ====
section
/-! SUPPORT. Reading back after an update: the tables of two and of eight, the block updates of Machine/Ops.lean, and folds that
leave a reading of the state alone. -/

namespace Sys2Proof

variable {α β : Type}

@[simp] theorem Both.get_set_self (t : Both α) (p : Port) (x : α) : (t.set p x).get p = x := by cases p <;> rfl

theorem Both.get_set (t : Both α) (p q : Port) (x : α) : (t.set p x).get q = if q = p then x else t.get q := by
  cases p <;> cases q <;> rfl

@[simp] theorem Both.get_set_ne (t : Both α) {p q : Port} (x : α) (h : q ≠ p) : (t.set p x).get q = t.get q := by
  rw [Both.get_set, if_neg h]

@[simp] theorem Both.set_get_self (t : Both α) (p : Port) : t.set p (t.get p) = t := by cases p <;> rfl

@[simp] theorem Both.set_set_self (t : Both α) (p : Port) (x y : α) : (t.set p x).set p y = t.set p y := by cases p <;> rfl

@[simp] theorem Both.get_a (x y : α) : (Both.mk x y).get .a = x := rfl

@[simp] theorem Both.get_b (x y : α) : (Both.mk x y).get .b = y := rfl

theorem Both.ext_get {t u : Both α} (h : ∀ p, t.get p = u.get p) : t = u := by
  cases t; cases u; simp only [Both.mk.injEq]; exact ⟨h .a, h .b⟩

/-- A fact about every index follows from the eight. -/
theorem forall_index {P : Fin 8 → Prop} (h0 : P 0) (h1 : P 1) (h2 : P 2) (h3 : P 3) (h4 : P 4) (h5 : P 5) (h6 : P 6) (h7 : P 7) :
    ∀ i, P i := by
  intro i; fin_cases i <;> assumption

@[simp] theorem Eight.get_set_self (t : Eight α) (i : Fin 8) (x : α) : (t.set i x).get i = x := by
  revert i; exact forall_index rfl rfl rfl rfl rfl rfl rfl rfl

theorem Eight.get_set (t : Eight α) (i j : Fin 8) (x : α) : (t.set i x).get j = if j = i then x else t.get j := by
  revert i j
  refine forall_index ?_ ?_ ?_ ?_ ?_ ?_ ?_ ?_ <;> exact forall_index rfl rfl rfl rfl rfl rfl rfl rfl

@[simp] theorem Eight.get_set_ne (t : Eight α) {i j : Fin 8} (x : α) (h : j ≠ i) : (t.set i x).get j = t.get j := by
  rw [Eight.get_set, if_neg h]

@[simp] theorem Eight.set_get_self (t : Eight α) (i : Fin 8) : t.set i (t.get i) = t := by
  revert i; exact forall_index rfl rfl rfl rfl rfl rfl rfl rfl

@[simp] theorem Eight.set_set_self (t : Eight α) (i : Fin 8) (x y : α) : (t.set i x).set i y = t.set i y := by
  revert i; exact forall_index rfl rfl rfl rfl rfl rfl rfl rfl

@[simp] theorem Eight.get_const (x : α) (i : Fin 8) : (Eight.const x).get i = x := by
  revert i; exact forall_index rfl rfl rfl rfl rfl rfl rfl rfl

@[simp] theorem Eight.get_map (t : Eight α) (f : α → β) (i : Fin 8) : (t.map f).get i = f (t.get i) := by
  revert i; exact forall_index rfl rfl rfl rfl rfl rfl rfl rfl

theorem Eight.ext_get {t u : Eight α} (h : ∀ i, t.get i = u.get i) : t = u := by
  cases t; cases u; simp only [Eight.mk.injEq]; exact ⟨h 0, h 1, h 2, h 3, h 4, h 5, h 6, h 7⟩

namespace Machine

variable (s : State)

/-- A fold leaves a reading alone when each of its steps does. -/
theorem foldl_keeps {β γ : Type} (g : State → γ) (f : State → β → State) (h : ∀ s x, g (f s x) = g s) (xs : List β) (s : State) :
    g (xs.foldl f s) = g s := by
  induction xs generalizing s with
  | nil => rfl
  | cons x xs ih => rw [List.foldl_cons, ih, h]

/-- A fold keeps a property when each of its steps does. -/
theorem foldl_holds {β : Type} (P : State → Prop) (f : State → β → State) (h : ∀ s x, P s → P (f s x)) (xs : List β) (s : State)
    (hs : P s) : P (xs.foldl f s) := by
  induction xs generalizing s with
  | nil => exact hs
  | cons x xs ih => exact ih _ (h s x hs)

/-! ## The block updates, read back -/

@[simp] theorem State.setLane_get_self (l : Fin 8) (f : Lane → Lane) : (s.setLane l f).lanes.get l = f (s.lanes.get l) := by
  simp [State.setLane]

theorem State.setLane_get (l m : Fin 8) (f : Lane → Lane) :
    (s.setLane l f).lanes.get m = if m = l then f (s.lanes.get l) else s.lanes.get m := by
  simp [State.setLane, Eight.get_set]

@[simp] theorem State.setPort_get_self (p : Port) (f : HostPort → HostPort) :
    (s.setPort p f).ports.get p = f (s.ports.get p) := by
  simp [State.setPort]

/-- Two changes of one lane are one. -/
@[simp] theorem State.setLane_setLane (l : Fin 8) (f g : Lane → Lane) : (s.setLane l f).setLane l g = s.setLane l fun n => g (f n) := by
  simp [State.setLane]

/-- Two changes of one port are one. -/
@[simp] theorem State.setPort_setPort (p : Port) (f g : HostPort → HostPort) :
    (s.setPort p f).setPort p g = s.setPort p fun h => g (f h) := by
  simp [State.setPort]

theorem State.setPort_get (p q : Port) (f : HostPort → HostPort) :
    (s.setPort p f).ports.get q = if q = p then f (s.ports.get p) else s.ports.get q := by
  simp [State.setPort, Both.get_set]

@[simp] theorem State.setRecords_get_self (r : Fin 8) (f : List Delivery → List Delivery) :
    (s.setRecords r f).dle.records.get r = f (s.dle.records.get r) := by
  simp [State.setRecords]

theorem State.setRecords_get (r q : Fin 8) (f : List Delivery → List Delivery) :
    (s.setRecords r f).dle.records.get q = if q = r then f (s.dle.records.get r) else s.dle.records.get q := by
  simp [State.setRecords, Eight.get_set]

@[simp] theorem State.setRereads_get_self (p : Port) (f : List Reread → List Reread) :
    (s.setRereads p f).dle.rereads.get p = f (s.dle.rereads.get p) := by
  simp [State.setRereads]

theorem State.setRereads_get (p q : Port) (f : List Reread → List Reread) :
    (s.setRereads p f).dle.rereads.get q = if q = p then f (s.dle.rereads.get p) else s.dle.rereads.get q := by
  simp [State.setRereads, Both.get_set]

@[simp] theorem State.setSlot_slots (i : Nat) (f : Slot → Slot) : (s.setSlot i f).slm.slots = s.slm.slots.modify i f := rfl

theorem State.setSlot_slot (i j : Nat) (f : Slot → Slot) (h : i < s.slm.slots.length) :
    (s.setSlot i f).slot j = if j = i then f (s.slot i) else s.slot j := by
  unfold State.slot State.setSlot
  rw [List.getD_eq_getElem?_getD, List.getD_eq_getElem?_getD, List.getD_eq_getElem?_getD]
  simp only [List.getElem?_modify]
  by_cases hj : j = i
  · subst hj; simp [List.getElem?_eq_getElem h]
  · have : i ≠ j := fun e => hj e.symm
    simp [hj, this]

@[simp] theorem State.advanceTo_now (t : Nat) : (s.advanceTo t).now = max s.now t := rfl

/-- Every atom of the state that `whenPowered` can show: with PWR_OK high a meaning answers a next state. -/
@[simp] theorem State.whenPowered_high (f : State → State) (h : s.pwrOk = true) : s.whenPowered f = .next (f s) := by
  simp [State.whenPowered, h]

@[simp] theorem State.whenPowered_low (f : State → State) (h : s.pwrOk = false) : s.whenPowered f = .next s := by
  simp [State.whenPowered, h]

end Machine
end Sys2Proof
end

