-- ==== Sys2Proof/Laws/Frame.lean ====
section
/-! SUPPORT. For each shared operation, the parts of the state it leaves alone, as one simp lemma: the provers cite these instead of
unfolding. -/

namespace Sys2Proof.Machine

/-! ## Ops -/

@[simp] theorem State.setLane_frame (s : State) (l : Fin 8) (f : Lane → Lane) :
    (s.setLane l f).pending = s.pending ∧ (s.setLane l f).now = s.now ∧ (s.setLane l f).pwrOk = s.pwrOk ∧
    (s.setLane l f).ptk = s.ptk ∧ (s.setLane l f).tru = s.tru ∧ (s.setLane l f).frt = s.frt ∧ (s.setLane l f).slm = s.slm ∧
    (s.setLane l f).layout = s.layout ∧ (s.setLane l f).dle = s.dle ∧ (s.setLane l f).ports = s.ports ∧
    (s.setLane l f).rnc = s.rnc ∧ (s.setLane l f).ntu = s.ntu := by
  simp [State.setLane]

@[simp] theorem State.setPort_frame (s : State) (p : Port) (f : HostPort → HostPort) :
    (s.setPort p f).pending = s.pending ∧ (s.setPort p f).now = s.now ∧ (s.setPort p f).pwrOk = s.pwrOk ∧
    (s.setPort p f).ptk = s.ptk ∧ (s.setPort p f).tru = s.tru ∧ (s.setPort p f).lanes = s.lanes ∧
    (s.setPort p f).frt = s.frt ∧ (s.setPort p f).slm = s.slm ∧ (s.setPort p f).layout = s.layout ∧
    (s.setPort p f).dle = s.dle ∧ (s.setPort p f).rnc = s.rnc ∧ (s.setPort p f).ntu = s.ntu := by
  simp [State.setPort]

@[simp] theorem State.setSlot_frame (s : State) (i : Nat) (f : Slot → Slot) :
    (s.setSlot i f).pending = s.pending ∧ (s.setSlot i f).now = s.now ∧ (s.setSlot i f).pwrOk = s.pwrOk ∧
    (s.setSlot i f).ptk = s.ptk ∧ (s.setSlot i f).tru = s.tru ∧ (s.setSlot i f).lanes = s.lanes ∧
    (s.setSlot i f).frt = s.frt ∧ (s.setSlot i f).slm.record = s.slm.record ∧
    (s.setSlot i f).slm.allocCounter = s.slm.allocCounter ∧ (s.setSlot i f).slm.store = s.slm.store ∧
    (s.setSlot i f).layout = s.layout ∧ (s.setSlot i f).dle = s.dle ∧ (s.setSlot i f).ports = s.ports ∧
    (s.setSlot i f).rnc = s.rnc ∧ (s.setSlot i f).ntu = s.ntu := by
  simp [State.setSlot]

@[simp] theorem State.setRecords_frame (s : State) (r : Fin 8) (f : List Delivery → List Delivery) :
    (s.setRecords r f).pending = s.pending ∧ (s.setRecords r f).now = s.now ∧ (s.setRecords r f).pwrOk = s.pwrOk ∧
    (s.setRecords r f).ptk = s.ptk ∧ (s.setRecords r f).tru = s.tru ∧ (s.setRecords r f).lanes = s.lanes ∧
    (s.setRecords r f).frt = s.frt ∧ (s.setRecords r f).slm = s.slm ∧ (s.setRecords r f).layout = s.layout ∧
    (s.setRecords r f).dle.routes = s.dle.routes ∧ (s.setRecords r f).dle.paused = s.dle.paused ∧
    (s.setRecords r f).dle.rereads = s.dle.rereads ∧ (s.setRecords r f).ports = s.ports ∧ (s.setRecords r f).rnc = s.rnc ∧
    (s.setRecords r f).ntu = s.ntu := by
  simp [State.setRecords]

@[simp] theorem State.setRecord_frame (s : State) (r : Fin 8) (a : Nat) (f : Delivery → Delivery) :
    (s.setRecord r a f).pending = s.pending ∧ (s.setRecord r a f).now = s.now ∧ (s.setRecord r a f).pwrOk = s.pwrOk ∧
    (s.setRecord r a f).ptk = s.ptk ∧ (s.setRecord r a f).tru = s.tru ∧ (s.setRecord r a f).lanes = s.lanes ∧
    (s.setRecord r a f).frt = s.frt ∧ (s.setRecord r a f).slm = s.slm ∧ (s.setRecord r a f).layout = s.layout ∧
    (s.setRecord r a f).dle.routes = s.dle.routes ∧ (s.setRecord r a f).dle.paused = s.dle.paused ∧
    (s.setRecord r a f).dle.rereads = s.dle.rereads ∧ (s.setRecord r a f).ports = s.ports ∧ (s.setRecord r a f).rnc = s.rnc ∧
    (s.setRecord r a f).ntu = s.ntu := by
  simp [State.setRecord]

@[simp] theorem State.setRereads_frame (s : State) (p : Port) (f : List Reread → List Reread) :
    (s.setRereads p f).pending = s.pending ∧ (s.setRereads p f).now = s.now ∧ (s.setRereads p f).pwrOk = s.pwrOk ∧
    (s.setRereads p f).ptk = s.ptk ∧ (s.setRereads p f).tru = s.tru ∧ (s.setRereads p f).lanes = s.lanes ∧
    (s.setRereads p f).frt = s.frt ∧ (s.setRereads p f).slm = s.slm ∧ (s.setRereads p f).layout = s.layout ∧
    (s.setRereads p f).dle.routes = s.dle.routes ∧ (s.setRereads p f).dle.records = s.dle.records ∧
    (s.setRereads p f).dle.paused = s.dle.paused ∧ (s.setRereads p f).ports = s.ports ∧ (s.setRereads p f).rnc = s.rnc ∧
    (s.setRereads p f).ntu = s.ntu := by
  simp [State.setRereads]

@[simp] theorem State.advanceTo_frame (s : State) (t : Nat) :
    (s.advanceTo t).pending = s.pending ∧ (s.advanceTo t).pwrOk = s.pwrOk ∧ (s.advanceTo t).ptk = s.ptk ∧
    (s.advanceTo t).tru = s.tru ∧ (s.advanceTo t).lanes = s.lanes ∧ (s.advanceTo t).frt = s.frt ∧
    (s.advanceTo t).slm = s.slm ∧ (s.advanceTo t).layout = s.layout ∧ (s.advanceTo t).dle = s.dle ∧
    (s.advanceTo t).ports = s.ports ∧ (s.advanceTo t).rnc = s.rnc ∧ (s.advanceTo t).ntu = s.ntu := by
  simp [State.advanceTo]

@[simp] theorem State.countLane_frame (s : State) (l : Fin 8) (f : LaneCounters → LaneCounters) :
    (s.countLane l f).pending = s.pending ∧ (s.countLane l f).now = s.now ∧ (s.countLane l f).pwrOk = s.pwrOk ∧
    (s.countLane l f).ptk = s.ptk ∧ (s.countLane l f).tru = s.tru ∧ (s.countLane l f).lanes = s.lanes ∧
    (s.countLane l f).frt = s.frt ∧ (s.countLane l f).slm = s.slm ∧ (s.countLane l f).layout = s.layout ∧
    (s.countLane l f).dle = s.dle ∧ (s.countLane l f).ports = s.ports ∧ (s.countLane l f).rnc = s.rnc ∧
    (s.countLane l f).ntu.pending = s.ntu.pending ∧ (s.countLane l f).ntu.enable = s.ntu.enable := by
  simp [State.countLane]

@[simp] theorem State.countPosition_frame (s : State) (f : PositionCounters → PositionCounters) :
    (s.countPosition f).pending = s.pending ∧ (s.countPosition f).now = s.now ∧ (s.countPosition f).pwrOk = s.pwrOk ∧
    (s.countPosition f).ptk = s.ptk ∧ (s.countPosition f).tru = s.tru ∧ (s.countPosition f).lanes = s.lanes ∧
    (s.countPosition f).frt = s.frt ∧ (s.countPosition f).slm = s.slm ∧ (s.countPosition f).layout = s.layout ∧
    (s.countPosition f).dle = s.dle ∧ (s.countPosition f).ports = s.ports ∧ (s.countPosition f).rnc = s.rnc ∧
    (s.countPosition f).ntu.pending = s.ntu.pending ∧ (s.countPosition f).ntu.enable = s.ntu.enable := by
  simp [State.countPosition]

@[simp] theorem State.countFrames_frame (s : State) (f : FrameCounters → FrameCounters) :
    (s.countFrames f).pending = s.pending ∧ (s.countFrames f).now = s.now ∧ (s.countFrames f).pwrOk = s.pwrOk ∧
    (s.countFrames f).ptk = s.ptk ∧ (s.countFrames f).tru = s.tru ∧ (s.countFrames f).lanes = s.lanes ∧
    (s.countFrames f).frt = s.frt ∧ (s.countFrames f).slm = s.slm ∧ (s.countFrames f).layout = s.layout ∧
    (s.countFrames f).dle = s.dle ∧ (s.countFrames f).ports = s.ports ∧ (s.countFrames f).rnc = s.rnc ∧
    (s.countFrames f).ntu.pending = s.ntu.pending ∧ (s.countFrames f).ntu.enable = s.ntu.enable := by
  simp [State.countFrames]

@[simp] theorem State.countPort_frame (s : State) (p : Port) (f : PortCounters → PortCounters) :
    (s.countPort p f).pending = s.pending ∧ (s.countPort p f).now = s.now ∧ (s.countPort p f).pwrOk = s.pwrOk ∧
    (s.countPort p f).ptk = s.ptk ∧ (s.countPort p f).tru = s.tru ∧ (s.countPort p f).lanes = s.lanes ∧
    (s.countPort p f).frt = s.frt ∧ (s.countPort p f).slm = s.slm ∧ (s.countPort p f).layout = s.layout ∧
    (s.countPort p f).dle = s.dle ∧ (s.countPort p f).ports = s.ports ∧ (s.countPort p f).rnc = s.rnc ∧
    (s.countPort p f).ntu.pending = s.ntu.pending ∧ (s.countPort p f).ntu.enable = s.ntu.enable := by
  simp [State.countPort]

@[simp] theorem State.offerNotice_frame (s : State) (k : Packet) :
    (s.offerNotice k).pending = s.pending ∧ (s.offerNotice k).now = s.now ∧ (s.offerNotice k).pwrOk = s.pwrOk ∧
    (s.offerNotice k).ptk = s.ptk ∧ (s.offerNotice k).tru = s.tru ∧ (s.offerNotice k).lanes = s.lanes ∧
    (s.offerNotice k).frt = s.frt ∧ (s.offerNotice k).slm = s.slm ∧ (s.offerNotice k).layout = s.layout ∧
    (s.offerNotice k).dle = s.dle ∧ (s.offerNotice k).rnc = s.rnc ∧ (s.offerNotice k).ntu = s.ntu := by
  unfold State.offerNotice; (repeat' split) <;> simp

@[simp] theorem State.raise_frame (s : State) (x : Source) (fr : Option Nat) (l : Option (Fin 8)) (d : Int) :
    (s.raise x fr l d).pending = s.pending ∧ (s.raise x fr l d).now = s.now ∧ (s.raise x fr l d).pwrOk = s.pwrOk ∧
    (s.raise x fr l d).ptk = s.ptk ∧ (s.raise x fr l d).tru = s.tru ∧ (s.raise x fr l d).lanes = s.lanes ∧
    (s.raise x fr l d).frt = s.frt ∧ (s.raise x fr l d).slm = s.slm ∧ (s.raise x fr l d).layout = s.layout ∧
    (s.raise x fr l d).dle = s.dle ∧ (s.raise x fr l d).rnc = s.rnc ∧ (s.raise x fr l d).ntu.enable = s.ntu.enable ∧
    (s.raise x fr l d).ntu.counters = s.ntu.counters := by
  unfold State.raise; (repeat' split) <;> simp

/-! ## Slots -/

@[simp] theorem State.resolve_frame (s : State) (l : Fin 8) (k : Fin 4) (p : Int) (res : Resolution) :
    (s.resolve l k p res).pending = s.pending ∧ (s.resolve l k p res).now = s.now ∧ (s.resolve l k p res).pwrOk = s.pwrOk ∧
    (s.resolve l k p res).ptk = s.ptk ∧ (s.resolve l k p res).tru = s.tru ∧ (s.resolve l k p res).lanes = s.lanes ∧
    (s.resolve l k p res).frt = s.frt ∧ (s.resolve l k p res).slm.record = s.slm.record ∧
    (s.resolve l k p res).slm.allocCounter = s.slm.allocCounter ∧ (s.resolve l k p res).slm.store = s.slm.store ∧
    (s.resolve l k p res).layout = s.layout ∧ (s.resolve l k p res).dle = s.dle ∧ (s.resolve l k p res).ports = s.ports ∧
    (s.resolve l k p res).rnc = s.rnc ∧ (s.resolve l k p res).ntu.pending = s.ntu.pending ∧
    (s.resolve l k p res).ntu.enable = s.ntu.enable := by
  unfold State.resolve; split <;> [skip; (dsimp only; split <;> [split; skip])] <;> simp

@[simp] theorem State.dropRecords_frame (s : State) (a : Nat) :
    (s.dropRecords a).pending = s.pending ∧ (s.dropRecords a).now = s.now ∧ (s.dropRecords a).pwrOk = s.pwrOk ∧
    (s.dropRecords a).ptk = s.ptk ∧ (s.dropRecords a).tru = s.tru ∧ (s.dropRecords a).lanes = s.lanes ∧
    (s.dropRecords a).frt = s.frt ∧ (s.dropRecords a).slm = s.slm ∧ (s.dropRecords a).layout = s.layout ∧
    (s.dropRecords a).dle.routes = s.dle.routes ∧ (s.dropRecords a).dle.paused = s.dle.paused ∧
    (s.dropRecords a).dle.rereads = s.dle.rereads ∧ (s.dropRecords a).ports = s.ports ∧ (s.dropRecords a).rnc = s.rnc ∧
    (s.dropRecords a).ntu = s.ntu := by
  simp [State.dropRecords]

@[simp] theorem State.freeSlot_frame (s : State) (i : Nat) :
    (s.freeSlot i).pending = s.pending ∧ (s.freeSlot i).now = s.now ∧ (s.freeSlot i).pwrOk = s.pwrOk ∧
    (s.freeSlot i).ptk = s.ptk ∧ (s.freeSlot i).tru = s.tru ∧ (s.freeSlot i).lanes = s.lanes ∧ (s.freeSlot i).frt = s.frt ∧
    (s.freeSlot i).slm.record = s.slm.record ∧ (s.freeSlot i).slm.allocCounter = s.slm.allocCounter ∧
    (s.freeSlot i).slm.store = s.slm.store ∧ (s.freeSlot i).layout = s.layout ∧ (s.freeSlot i).dle.routes = s.dle.routes ∧
    (s.freeSlot i).dle.paused = s.dle.paused ∧ (s.freeSlot i).dle.rereads = s.dle.rereads ∧ (s.freeSlot i).ports = s.ports ∧
    (s.freeSlot i).rnc = s.rnc ∧ (s.freeSlot i).ntu = s.ntu := by
  simp [State.freeSlot]

@[simp] theorem State.freeingTest_frame (s : State) (i : Nat) :
    (s.freeingTest i).pending = s.pending ∧ (s.freeingTest i).now = s.now ∧ (s.freeingTest i).pwrOk = s.pwrOk ∧
    (s.freeingTest i).ptk = s.ptk ∧ (s.freeingTest i).tru = s.tru ∧ (s.freeingTest i).lanes = s.lanes ∧
    (s.freeingTest i).frt = s.frt ∧ (s.freeingTest i).slm.record = s.slm.record ∧
    (s.freeingTest i).slm.allocCounter = s.slm.allocCounter ∧ (s.freeingTest i).slm.store = s.slm.store ∧
    (s.freeingTest i).layout = s.layout ∧ (s.freeingTest i).dle.routes = s.dle.routes ∧
    (s.freeingTest i).dle.paused = s.dle.paused ∧ (s.freeingTest i).dle.rereads = s.dle.rereads ∧
    (s.freeingTest i).ports = s.ports ∧ (s.freeingTest i).rnc = s.rnc ∧ (s.freeingTest i).ntu = s.ntu := by
  unfold State.freeingTest; dsimp only; (repeat' split) <;> simp

@[simp] theorem State.reportFinal_frame (s : State) (r : Fin 8) (i : Nat) :
    (s.reportFinal r i).pending = s.pending ∧ (s.reportFinal r i).now = s.now ∧ (s.reportFinal r i).pwrOk = s.pwrOk ∧
    (s.reportFinal r i).ptk = s.ptk ∧ (s.reportFinal r i).tru = s.tru ∧ (s.reportFinal r i).lanes = s.lanes ∧
    (s.reportFinal r i).frt = s.frt ∧ (s.reportFinal r i).slm.record = s.slm.record ∧
    (s.reportFinal r i).slm.allocCounter = s.slm.allocCounter ∧ (s.reportFinal r i).slm.store = s.slm.store ∧
    (s.reportFinal r i).layout = s.layout ∧ (s.reportFinal r i).dle.routes = s.dle.routes ∧
    (s.reportFinal r i).dle.paused = s.dle.paused ∧ (s.reportFinal r i).dle.rereads = s.dle.rereads ∧
    (s.reportFinal r i).ports = s.ports ∧ (s.reportFinal r i).rnc = s.rnc ∧ (s.reportFinal r i).ntu = s.ntu := by
  simp [State.reportFinal]

@[simp] theorem State.rereadEnded_frame (s : State) (i : Nat) :
    (s.rereadEnded i).pending = s.pending ∧ (s.rereadEnded i).now = s.now ∧ (s.rereadEnded i).pwrOk = s.pwrOk ∧
    (s.rereadEnded i).ptk = s.ptk ∧ (s.rereadEnded i).tru = s.tru ∧ (s.rereadEnded i).lanes = s.lanes ∧
    (s.rereadEnded i).frt = s.frt ∧ (s.rereadEnded i).slm.record = s.slm.record ∧
    (s.rereadEnded i).slm.allocCounter = s.slm.allocCounter ∧ (s.rereadEnded i).slm.store = s.slm.store ∧
    (s.rereadEnded i).layout = s.layout ∧ (s.rereadEnded i).dle.routes = s.dle.routes ∧
    (s.rereadEnded i).dle.paused = s.dle.paused ∧ (s.rereadEnded i).dle.rereads = s.dle.rereads ∧
    (s.rereadEnded i).ports = s.ports ∧ (s.rereadEnded i).rnc = s.rnc ∧ (s.rereadEnded i).ntu = s.ntu := by
  unfold State.rereadEnded; dsimp only; (repeat' split) <;> simp

@[simp] theorem State.boundSlot_frame (s : State) (i : Nat) (e : Int) :
    (s.boundSlot i e).pending = s.pending ∧ (s.boundSlot i e).now = s.now ∧ (s.boundSlot i e).pwrOk = s.pwrOk ∧
    (s.boundSlot i e).ptk = s.ptk ∧ (s.boundSlot i e).tru = s.tru ∧ (s.boundSlot i e).lanes = s.lanes ∧
    (s.boundSlot i e).frt = s.frt ∧ (s.boundSlot i e).slm.record = s.slm.record ∧
    (s.boundSlot i e).slm.allocCounter = s.slm.allocCounter ∧ (s.boundSlot i e).slm.store = s.slm.store ∧
    (s.boundSlot i e).layout = s.layout ∧ (s.boundSlot i e).dle = s.dle ∧ (s.boundSlot i e).ports = s.ports ∧
    (s.boundSlot i e).rnc = s.rnc ∧ (s.boundSlot i e).ntu = s.ntu := by
  simp [State.boundSlot]

@[simp] theorem State.closeSlot_frame (s : State) (i n : Nat) (c : CloseReason) :
    (s.closeSlot i n c).pending = s.pending ∧ (s.closeSlot i n c).now = s.now ∧ (s.closeSlot i n c).pwrOk = s.pwrOk ∧
    (s.closeSlot i n c).ptk = s.ptk ∧ (s.closeSlot i n c).tru = s.tru ∧ (s.closeSlot i n c).lanes = s.lanes ∧
    (s.closeSlot i n c).frt = s.frt ∧ (s.closeSlot i n c).slm.record = s.slm.record ∧
    (s.closeSlot i n c).slm.allocCounter = s.slm.allocCounter ∧ (s.closeSlot i n c).slm.store = s.slm.store ∧
    (s.closeSlot i n c).layout = s.layout ∧ (s.closeSlot i n c).dle.routes = s.dle.routes ∧
    (s.closeSlot i n c).dle.paused = s.dle.paused ∧ (s.closeSlot i n c).dle.rereads = s.dle.rereads ∧
    (s.closeSlot i n c).ports = s.ports ∧ (s.closeSlot i n c).rnc = s.rnc ∧ (s.closeSlot i n c).ntu = s.ntu := by
  simp [State.closeSlot]

@[simp] theorem State.setUpSlot_frame (s : State) (i n : Nat) (p : Int) (k : BoundaryKind) :
    (s.setUpSlot i n p k).pending = s.pending ∧ (s.setUpSlot i n p k).now = s.now ∧ (s.setUpSlot i n p k).pwrOk = s.pwrOk ∧
    (s.setUpSlot i n p k).ptk = s.ptk ∧ (s.setUpSlot i n p k).tru = s.tru ∧ (s.setUpSlot i n p k).lanes = s.lanes ∧
    (s.setUpSlot i n p k).frt = s.frt ∧ (s.setUpSlot i n p k).slm.record = s.slm.record ∧
    (s.setUpSlot i n p k).slm.store = s.slm.store ∧ (s.setUpSlot i n p k).layout = s.layout ∧
    (s.setUpSlot i n p k).dle.routes = s.dle.routes ∧ (s.setUpSlot i n p k).dle.paused = s.dle.paused ∧
    (s.setUpSlot i n p k).dle.rereads = s.dle.rereads ∧ (s.setUpSlot i n p k).ports = s.ports ∧
    (s.setUpSlot i n p k).rnc = s.rnc ∧ (s.setUpSlot i n p k).ntu = s.ntu := by
  unfold State.setUpSlot
  dsimp only
  have h := fun u : State => foldl_keeps (fun s : State => (s.pending, s.now, s.pwrOk, s.ptk, s.tru, s.lanes, s.frt, s.slm.record, s.slm.store, s.layout, s.dle.routes, s.dle.paused, s.dle.rereads, s.ports, s.rnc, s.ntu))
    (fun s r => s.setRecords r fun ds => ds ++ [Delivery.fresh i (u.slm.allocCounter + 1)]) (by intro s x; simp) (u.selecting n)
  simp only [Prod.mk.injEq] at h
  simp [h]

@[simp] theorem State.evict_frame (s : State) (i : Nat) :
    (s.evict i).pending = s.pending ∧ (s.evict i).now = s.now ∧ (s.evict i).pwrOk = s.pwrOk ∧ (s.evict i).ptk = s.ptk ∧
    (s.evict i).tru = s.tru ∧ (s.evict i).lanes = s.lanes ∧ (s.evict i).frt = s.frt ∧ (s.evict i).slm = s.slm ∧
    (s.evict i).layout = s.layout ∧ (s.evict i).dle.routes = s.dle.routes ∧ (s.evict i).dle.paused = s.dle.paused ∧
    (s.evict i).dle.rereads = s.dle.rereads ∧ (s.evict i).rnc = s.rnc ∧ (s.evict i).ntu.enable = s.ntu.enable := by
  simp [State.evict]

@[simp] theorem State.allocate_frame (s : State) (n : Nat) (p : Int) (k : BoundaryKind) :
    (s.allocate n p k).2.pending = s.pending ∧ (s.allocate n p k).2.now = s.now ∧ (s.allocate n p k).2.pwrOk = s.pwrOk ∧
    (s.allocate n p k).2.ptk = s.ptk ∧ (s.allocate n p k).2.tru = s.tru ∧ (s.allocate n p k).2.lanes = s.lanes ∧
    (s.allocate n p k).2.frt = s.frt ∧ (s.allocate n p k).2.slm.record = s.slm.record ∧
    (s.allocate n p k).2.slm.store = s.slm.store ∧ (s.allocate n p k).2.layout = s.layout ∧
    (s.allocate n p k).2.dle.routes = s.dle.routes ∧ (s.allocate n p k).2.dle.paused = s.dle.paused ∧
    (s.allocate n p k).2.dle.rereads = s.dle.rereads ∧ (s.allocate n p k).2.rnc = s.rnc ∧
    (s.allocate n p k).2.ntu.enable = s.ntu.enable := by
  unfold State.allocate; (repeat' split) <;> simp

/-! ## Stitching -/

@[simp] theorem State.writeLine_frame (s : State) (l : Fin 8) (k : Fin 4) (pl : Place) (line : List Byte) :
    (s.writeLine l k pl line).pending = s.pending ∧ (s.writeLine l k pl line).now = s.now ∧
    (s.writeLine l k pl line).pwrOk = s.pwrOk ∧ (s.writeLine l k pl line).ptk = s.ptk ∧
    (s.writeLine l k pl line).tru = s.tru ∧ (s.writeLine l k pl line).lanes = s.lanes ∧
    (s.writeLine l k pl line).frt = s.frt ∧ (s.writeLine l k pl line).slm.record = s.slm.record ∧
    (s.writeLine l k pl line).slm.slots = s.slm.slots ∧ (s.writeLine l k pl line).slm.allocCounter = s.slm.allocCounter ∧
    (s.writeLine l k pl line).layout = s.layout ∧ (s.writeLine l k pl line).dle = s.dle ∧
    (s.writeLine l k pl line).ports = s.ports ∧ (s.writeLine l k pl line).rnc = s.rnc ∧ (s.writeLine l k pl line).ntu = s.ntu := by
  simp [State.writeLine]

@[simp] theorem State.readinessTest_frame (s : State) :
    s.readinessTest.pending = s.pending ∧ s.readinessTest.now = s.now ∧ s.readinessTest.pwrOk = s.pwrOk ∧
    s.readinessTest.ptk = s.ptk ∧ s.readinessTest.tru = s.tru ∧ s.readinessTest.lanes = s.lanes ∧
    s.readinessTest.frt = s.frt ∧ s.readinessTest.slm.record = s.slm.record ∧
    s.readinessTest.slm.allocCounter = s.slm.allocCounter ∧ s.readinessTest.slm.store = s.slm.store ∧
    s.readinessTest.layout = s.layout ∧ s.readinessTest.dle = s.dle ∧ s.readinessTest.ports = s.ports ∧
    s.readinessTest.rnc = s.rnc ∧ s.readinessTest.ntu = s.ntu := by
  simp [State.readinessTest]

/-! ## Trigger -/

@[simp] theorem State.fillMark_frame (s : State) (l : Fin 8) (k : Fin 4) (p : Int) (c : FillCause) :
    (s.fillMark l k p c).pending = s.pending ∧ (s.fillMark l k p c).now = s.now ∧ (s.fillMark l k p c).pwrOk = s.pwrOk ∧
    (s.fillMark l k p c).ptk = s.ptk ∧ (s.fillMark l k p c).tru = s.tru ∧ (s.fillMark l k p c).lanes = s.lanes ∧
    (s.fillMark l k p c).frt = s.frt ∧ (s.fillMark l k p c).slm.record = s.slm.record ∧
    (s.fillMark l k p c).slm.allocCounter = s.slm.allocCounter ∧ (s.fillMark l k p c).slm.store = s.slm.store ∧
    (s.fillMark l k p c).layout = s.layout ∧ (s.fillMark l k p c).dle = s.dle ∧ (s.fillMark l k p c).ports = s.ports ∧
    (s.fillMark l k p c).rnc = s.rnc ∧ (s.fillMark l k p c).ntu.pending = s.ntu.pending ∧
    (s.fillMark l k p c).ntu.enable = s.ntu.enable := by
  simp [State.fillMark]

@[simp] theorem State.append_frame (s : State) (l : Fin 8) (t : Int) (e : Fin 8) (x : PhaseEntry) :
    (s.append l t e x).pending = s.pending ∧ (s.append l t e x).now = s.now ∧ (s.append l t e x).pwrOk = s.pwrOk ∧
    (s.append l t e x).ptk = s.ptk ∧ (s.append l t e x).tru = s.tru ∧ (s.append l t e x).frt = s.frt ∧
    (s.append l t e x).slm = s.slm ∧ (s.append l t e x).layout = s.layout ∧ (s.append l t e x).dle = s.dle ∧
    (s.append l t e x).ports = s.ports ∧ (s.append l t e x).rnc = s.rnc ∧ (s.append l t e x).ntu = s.ntu := by
  simp [State.append]

@[simp] theorem State.withhold_frame (s : State) (l : Fin 8) (t : Int) (x : PhaseEntry) :
    (s.withhold l t x).pending = s.pending ∧ (s.withhold l t x).now = s.now ∧ (s.withhold l t x).pwrOk = s.pwrOk ∧
    (s.withhold l t x).ptk = s.ptk ∧ (s.withhold l t x).tru = s.tru ∧ (s.withhold l t x).lanes = s.lanes ∧
    (s.withhold l t x).frt = s.frt ∧ (s.withhold l t x).slm.record = s.slm.record ∧
    (s.withhold l t x).slm.allocCounter = s.slm.allocCounter ∧ (s.withhold l t x).slm.store = s.slm.store ∧
    (s.withhold l t x).layout = s.layout ∧ (s.withhold l t x).dle = s.dle ∧ (s.withhold l t x).rnc = s.rnc ∧
    (s.withhold l t x).ntu.enable = s.ntu.enable := by
  simp [State.withhold]

@[simp] theorem State.offerEntry_frame (s : State) (t : Int) (e : Fin 8) (x : PhaseEntry) (l : Fin 8) :
    (s.offerEntry t e x l).pending = s.pending ∧ (s.offerEntry t e x l).now = s.now ∧
    (s.offerEntry t e x l).pwrOk = s.pwrOk ∧ (s.offerEntry t e x l).ptk = s.ptk ∧ (s.offerEntry t e x l).tru = s.tru ∧
    (s.offerEntry t e x l).frt = s.frt ∧ (s.offerEntry t e x l).slm.record = s.slm.record ∧
    (s.offerEntry t e x l).slm.allocCounter = s.slm.allocCounter ∧ (s.offerEntry t e x l).slm.store = s.slm.store ∧
    (s.offerEntry t e x l).layout = s.layout ∧ (s.offerEntry t e x l).dle = s.dle ∧ (s.offerEntry t e x l).rnc = s.rnc ∧
    (s.offerEntry t e x l).ntu.enable = s.ntu.enable := by
  unfold State.offerEntry; dsimp only; (repeat' split) <;> simp

@[simp] theorem State.offers_frame (s : State) (t : Int) (e : Fin 8) (x : PhaseEntry) :
    (indices.foldl (fun s l => s.offerEntry t e x l) s).pending = s.pending ∧
    (indices.foldl (fun s l => s.offerEntry t e x l) s).now = s.now ∧
    (indices.foldl (fun s l => s.offerEntry t e x l) s).pwrOk = s.pwrOk ∧
    (indices.foldl (fun s l => s.offerEntry t e x l) s).ptk = s.ptk ∧
    (indices.foldl (fun s l => s.offerEntry t e x l) s).tru = s.tru ∧
    (indices.foldl (fun s l => s.offerEntry t e x l) s).frt = s.frt ∧
    (indices.foldl (fun s l => s.offerEntry t e x l) s).slm.record = s.slm.record ∧
    (indices.foldl (fun s l => s.offerEntry t e x l) s).slm.allocCounter = s.slm.allocCounter ∧
    (indices.foldl (fun s l => s.offerEntry t e x l) s).slm.store = s.slm.store ∧
    (indices.foldl (fun s l => s.offerEntry t e x l) s).layout = s.layout ∧
    (indices.foldl (fun s l => s.offerEntry t e x l) s).dle = s.dle ∧
    (indices.foldl (fun s l => s.offerEntry t e x l) s).rnc = s.rnc ∧
    (indices.foldl (fun s l => s.offerEntry t e x l) s).ntu.enable = s.ntu.enable := by
  have h := foldl_keeps (fun s : State => (s.pending, s.now, s.pwrOk, s.ptk, s.tru, s.frt, s.slm.record, s.slm.allocCounter, s.slm.store, s.layout, s.dle, s.rnc, s.ntu.enable))
    (fun s l => s.offerEntry t e x l) (by intro s x; simp) indices s
  simpa using h

@[simp] theorem State.issueNext_frame (s : State) :
    s.issueNext.pending = s.pending ∧ s.issueNext.now = s.now ∧ s.issueNext.pwrOk = s.pwrOk ∧ s.issueNext.ptk = s.ptk ∧
    s.issueNext.frt = s.frt ∧ s.issueNext.slm.record = s.slm.record ∧ s.issueNext.slm.allocCounter = s.slm.allocCounter ∧
    s.issueNext.slm.store = s.slm.store ∧ s.issueNext.layout = s.layout ∧ s.issueNext.dle = s.dle ∧ s.issueNext.rnc = s.rnc ∧
    s.issueNext.ntu.enable = s.ntu.enable := by
  unfold State.issueNext; (repeat' split) <;> (try dsimp only) <;> simp

@[simp] theorem State.issueGroup_frame (s : State) (t : Int) :
    (s.issueGroup t).pending = s.pending ∧ (s.issueGroup t).now = s.now ∧ (s.issueGroup t).pwrOk = s.pwrOk ∧
    (s.issueGroup t).ptk = s.ptk ∧ (s.issueGroup t).frt = s.frt ∧ (s.issueGroup t).slm.record = s.slm.record ∧
    (s.issueGroup t).slm.allocCounter = s.slm.allocCounter ∧ (s.issueGroup t).slm.store = s.slm.store ∧
    (s.issueGroup t).layout = s.layout ∧ (s.issueGroup t).dle = s.dle ∧ (s.issueGroup t).rnc = s.rnc ∧
    (s.issueGroup t).ntu.enable = s.ntu.enable := by
  simp [State.issueGroup]

@[simp] theorem State.overspeedMarks_frame (s : State) (t : Int) (l : Fin 8) :
    (s.overspeedMarks t l).pending = s.pending ∧ (s.overspeedMarks t l).now = s.now ∧
    (s.overspeedMarks t l).pwrOk = s.pwrOk ∧ (s.overspeedMarks t l).ptk = s.ptk ∧ (s.overspeedMarks t l).tru = s.tru ∧
    (s.overspeedMarks t l).lanes = s.lanes ∧ (s.overspeedMarks t l).frt = s.frt ∧
    (s.overspeedMarks t l).slm.record = s.slm.record ∧ (s.overspeedMarks t l).slm.allocCounter = s.slm.allocCounter ∧
    (s.overspeedMarks t l).slm.store = s.slm.store ∧ (s.overspeedMarks t l).layout = s.layout ∧
    (s.overspeedMarks t l).dle = s.dle ∧ (s.overspeedMarks t l).ports = s.ports ∧ (s.overspeedMarks t l).rnc = s.rnc ∧
    (s.overspeedMarks t l).ntu.pending = s.ntu.pending ∧ (s.overspeedMarks t l).ntu.enable = s.ntu.enable := by
  unfold State.overspeedMarks
  split
  · simp
  · rename_i c _
    have h := foldl_keeps (fun s : State => (s.pending, s.now, s.pwrOk, s.ptk, s.tru, s.lanes, s.frt, s.slm.record, s.slm.allocCounter, s.slm.store, s.layout, s.dle, s.ports, s.rnc, s.ntu.pending, s.ntu.enable))
      (fun s k => s.fillMark l k (s.positionAt l t) c) (by intro s x; simp) s.tru.planes s
    simpa using h

@[simp] theorem State.overspeedTick_frame (s : State) (t : Int) :
    (s.overspeedTick t).pending = s.pending ∧ (s.overspeedTick t).now = s.now ∧ (s.overspeedTick t).pwrOk = s.pwrOk ∧
    (s.overspeedTick t).ptk = s.ptk ∧ (s.overspeedTick t).lanes = s.lanes ∧ (s.overspeedTick t).frt = s.frt ∧
    (s.overspeedTick t).slm.record = s.slm.record ∧ (s.overspeedTick t).slm.allocCounter = s.slm.allocCounter ∧
    (s.overspeedTick t).slm.store = s.slm.store ∧ (s.overspeedTick t).layout = s.layout ∧ (s.overspeedTick t).dle = s.dle ∧
    (s.overspeedTick t).rnc = s.rnc ∧ (s.overspeedTick t).ntu.enable = s.ntu.enable := by
  have h := fun u : State => foldl_keeps (fun s : State => (s.pending, s.now, s.pwrOk, s.ptk, s.lanes, s.frt, s.slm.record, s.slm.allocCounter, s.slm.store, s.layout, s.dle, s.rnc, s.ntu.enable))
    (fun s l => s.overspeedMarks t l) (by intro s x; simp) indices u
  simp only [Prod.mk.injEq] at h
  simp [State.overspeedTick, h]

@[simp] theorem State.decideTick_frame (s : State) (t : Int) :
    (s.decideTick t).pending = s.pending ∧ (s.decideTick t).now = s.now ∧ (s.decideTick t).pwrOk = s.pwrOk ∧
    (s.decideTick t).ptk = s.ptk ∧ (s.decideTick t).frt = s.frt ∧ (s.decideTick t).slm.record = s.slm.record ∧
    (s.decideTick t).slm.allocCounter = s.slm.allocCounter ∧ (s.decideTick t).slm.store = s.slm.store ∧
    (s.decideTick t).layout = s.layout ∧ (s.decideTick t).dle = s.dle ∧ (s.decideTick t).rnc = s.rnc ∧
    (s.decideTick t).ntu.enable = s.ntu.enable := by
  unfold State.decideTick; (repeat' split) <;> simp

/-! ## Framing -/

@[simp] theorem State.closePassing_frame (s : State) (high : Int) (fs : List OpenFrame) :
    (closePassing high fs s).pending = s.pending ∧ (closePassing high fs s).now = s.now ∧
    (closePassing high fs s).pwrOk = s.pwrOk ∧ (closePassing high fs s).ptk = s.ptk ∧ (closePassing high fs s).tru = s.tru ∧
    (closePassing high fs s).lanes = s.lanes ∧ (closePassing high fs s).slm.record = s.slm.record ∧
    (closePassing high fs s).slm.allocCounter = s.slm.allocCounter ∧ (closePassing high fs s).slm.store = s.slm.store ∧
    (closePassing high fs s).layout = s.layout ∧ (closePassing high fs s).dle.routes = s.dle.routes ∧
    (closePassing high fs s).dle.paused = s.dle.paused ∧ (closePassing high fs s).dle.rereads = s.dle.rereads ∧
    (closePassing high fs s).ports = s.ports ∧ (closePassing high fs s).rnc = s.rnc ∧ (closePassing high fs s).ntu = s.ntu := by
  induction fs generalizing s with
  | nil => simp [closePassing]
  | cons f fs ih =>
    unfold closePassing
    split
    · simp
    · split
      · simp [ih]
      · simp

@[simp] theorem State.closeTest_frame (s : State) (high : Int) :
    (s.closeTest high).pending = s.pending ∧ (s.closeTest high).now = s.now ∧ (s.closeTest high).pwrOk = s.pwrOk ∧
    (s.closeTest high).ptk = s.ptk ∧ (s.closeTest high).tru = s.tru ∧ (s.closeTest high).lanes = s.lanes ∧
    (s.closeTest high).slm.record = s.slm.record ∧ (s.closeTest high).slm.allocCounter = s.slm.allocCounter ∧
    (s.closeTest high).slm.store = s.slm.store ∧ (s.closeTest high).layout = s.layout ∧
    (s.closeTest high).dle.routes = s.dle.routes ∧ (s.closeTest high).dle.paused = s.dle.paused ∧
    (s.closeTest high).dle.rereads = s.dle.rereads ∧ (s.closeTest high).ports = s.ports ∧ (s.closeTest high).rnc = s.rnc ∧
    (s.closeTest high).ntu = s.ntu := by
  simp [State.closeTest]

@[simp] theorem State.progressed_frame (s : State) :
    s.progressed.pending = s.pending ∧ s.progressed.now = s.now ∧ s.progressed.pwrOk = s.pwrOk ∧ s.progressed.ptk = s.ptk ∧
    s.progressed.tru = s.tru ∧ s.progressed.lanes = s.lanes ∧ s.progressed.slm.record = s.slm.record ∧
    s.progressed.slm.allocCounter = s.slm.allocCounter ∧ s.progressed.slm.store = s.slm.store ∧
    s.progressed.layout = s.layout ∧ s.progressed.dle.routes = s.dle.routes ∧ s.progressed.dle.paused = s.dle.paused ∧
    s.progressed.dle.rereads = s.dle.rereads ∧ s.progressed.ports = s.ports ∧ s.progressed.rnc = s.rnc ∧
    s.progressed.ntu = s.ntu := by
  simp [State.progressed]

@[simp] theorem State.shortClose_frame (s : State) (high : Int) (c : CloseReason) (f : OpenFrame) :
    (s.shortClose high c f).pending = s.pending ∧ (s.shortClose high c f).now = s.now ∧
    (s.shortClose high c f).pwrOk = s.pwrOk ∧ (s.shortClose high c f).ptk = s.ptk ∧ (s.shortClose high c f).tru = s.tru ∧
    (s.shortClose high c f).lanes = s.lanes ∧ (s.shortClose high c f).frt = s.frt ∧
    (s.shortClose high c f).slm.record = s.slm.record ∧ (s.shortClose high c f).slm.allocCounter = s.slm.allocCounter ∧
    (s.shortClose high c f).slm.store = s.slm.store ∧ (s.shortClose high c f).layout = s.layout ∧
    (s.shortClose high c f).dle.routes = s.dle.routes ∧ (s.shortClose high c f).dle.paused = s.dle.paused ∧
    (s.shortClose high c f).dle.rereads = s.dle.rereads ∧ (s.shortClose high c f).rnc = s.rnc ∧
    (s.shortClose high c f).ntu.enable = s.ntu.enable := by
  unfold State.shortClose; dsimp only; (repeat' split) <;> simp

@[simp] theorem State.shortCloseAll_frame (s : State) (high : Int) (c : CloseReason) :
    (s.shortCloseAll high c).pending = s.pending ∧ (s.shortCloseAll high c).now = s.now ∧
    (s.shortCloseAll high c).pwrOk = s.pwrOk ∧ (s.shortCloseAll high c).ptk = s.ptk ∧ (s.shortCloseAll high c).tru = s.tru ∧
    (s.shortCloseAll high c).lanes = s.lanes ∧ (s.shortCloseAll high c).slm.record = s.slm.record ∧
    (s.shortCloseAll high c).slm.allocCounter = s.slm.allocCounter ∧ (s.shortCloseAll high c).slm.store = s.slm.store ∧
    (s.shortCloseAll high c).layout = s.layout ∧ (s.shortCloseAll high c).dle.routes = s.dle.routes ∧
    (s.shortCloseAll high c).dle.paused = s.dle.paused ∧ (s.shortCloseAll high c).dle.rereads = s.dle.rereads ∧
    (s.shortCloseAll high c).rnc = s.rnc ∧ (s.shortCloseAll high c).ntu.enable = s.ntu.enable := by
  have h := fun u : State => foldl_keeps (fun s : State => (s.pending, s.now, s.pwrOk, s.ptk, s.tru, s.lanes, s.slm.record, s.slm.allocCounter, s.slm.store, s.layout, s.dle.routes, s.dle.paused, s.dle.rereads, s.rnc, s.ntu.enable))
    (fun s f => s.shortClose high c f) (by intro s x; simp) s.frt.openList u
  simp only [Prod.mk.injEq] at h
  simp [State.shortCloseAll, h]

@[simp] theorem State.stallClose_frame (s : State) :
    s.stallClose.pending = s.pending ∧ s.stallClose.now = s.now ∧ s.stallClose.pwrOk = s.pwrOk ∧ s.stallClose.ptk = s.ptk ∧
    s.stallClose.tru = s.tru ∧ s.stallClose.lanes = s.lanes ∧ s.stallClose.slm.record = s.slm.record ∧
    s.stallClose.slm.allocCounter = s.slm.allocCounter ∧ s.stallClose.slm.store = s.slm.store ∧
    s.stallClose.layout = s.layout ∧ s.stallClose.dle.routes = s.dle.routes ∧ s.stallClose.dle.paused = s.dle.paused ∧
    s.stallClose.dle.rereads = s.dle.rereads ∧ s.stallClose.rnc = s.rnc ∧ s.stallClose.ntu.enable = s.ntu.enable := by
  unfold State.stallClose; (repeat' split) <;> simp

@[simp] theorem State.rewindFrames_frame (s : State) (b : Int) :
    (s.rewindFrames b).pending = s.pending ∧ (s.rewindFrames b).now = s.now ∧ (s.rewindFrames b).pwrOk = s.pwrOk ∧
    (s.rewindFrames b).ptk = s.ptk ∧ (s.rewindFrames b).tru = s.tru ∧ (s.rewindFrames b).lanes = s.lanes ∧
    (s.rewindFrames b).slm.record = s.slm.record ∧ (s.rewindFrames b).slm.allocCounter = s.slm.allocCounter ∧
    (s.rewindFrames b).slm.store = s.slm.store ∧ (s.rewindFrames b).layout = s.layout ∧
    (s.rewindFrames b).dle.routes = s.dle.routes ∧ (s.rewindFrames b).dle.paused = s.dle.paused ∧
    (s.rewindFrames b).dle.rereads = s.dle.rereads ∧ (s.rewindFrames b).rnc = s.rnc ∧
    (s.rewindFrames b).ntu.enable = s.ntu.enable := by
  simp [State.rewindFrames]

@[simp] theorem State.stopClose_frame (s : State) (f : OpenFrame) :
    (s.stopClose f).pending = s.pending ∧ (s.stopClose f).now = s.now ∧ (s.stopClose f).pwrOk = s.pwrOk ∧
    (s.stopClose f).ptk = s.ptk ∧ (s.stopClose f).tru = s.tru ∧ (s.stopClose f).lanes = s.lanes ∧
    (s.stopClose f).frt = s.frt ∧ (s.stopClose f).slm.record = s.slm.record ∧
    (s.stopClose f).slm.allocCounter = s.slm.allocCounter ∧ (s.stopClose f).slm.store = s.slm.store ∧
    (s.stopClose f).layout = s.layout ∧ (s.stopClose f).dle.routes = s.dle.routes ∧
    (s.stopClose f).dle.paused = s.dle.paused ∧ (s.stopClose f).dle.rereads = s.dle.rereads ∧ (s.stopClose f).rnc = s.rnc ∧
    (s.stopClose f).ntu.enable = s.ntu.enable := by
  unfold State.stopClose; (repeat' split) <;> simp

@[simp] theorem State.stopCloseAll_frame (s : State) :
    s.stopCloseAll.pending = s.pending ∧ s.stopCloseAll.now = s.now ∧ s.stopCloseAll.pwrOk = s.pwrOk ∧
    s.stopCloseAll.ptk = s.ptk ∧ s.stopCloseAll.tru = s.tru ∧ s.stopCloseAll.lanes = s.lanes ∧
    s.stopCloseAll.slm.record = s.slm.record ∧ s.stopCloseAll.slm.allocCounter = s.slm.allocCounter ∧
    s.stopCloseAll.slm.store = s.slm.store ∧ s.stopCloseAll.layout = s.layout ∧ s.stopCloseAll.dle.routes = s.dle.routes ∧
    s.stopCloseAll.dle.paused = s.dle.paused ∧ s.stopCloseAll.dle.rereads = s.dle.rereads ∧
    s.stopCloseAll.ntu.enable = s.ntu.enable := by
  have h := fun u : State => foldl_keeps (fun s : State => (s.pending, s.now, s.pwrOk, s.ptk, s.tru, s.lanes, s.slm.record, s.slm.allocCounter, s.slm.store, s.layout, s.dle.routes, s.dle.paused, s.dle.rereads, s.ntu.enable))
    State.stopClose (by intro s x; simp) s.frt.openList u
  simp only [Prod.mk.injEq] at h
  simp [State.stopCloseAll, h]

@[simp] theorem State.boundNewest_frame (s : State) (e : Int) :
    (s.boundNewest e).pending = s.pending ∧ (s.boundNewest e).now = s.now ∧ (s.boundNewest e).pwrOk = s.pwrOk ∧
    (s.boundNewest e).ptk = s.ptk ∧ (s.boundNewest e).tru = s.tru ∧ (s.boundNewest e).lanes = s.lanes ∧
    (s.boundNewest e).slm.record = s.slm.record ∧ (s.boundNewest e).slm.allocCounter = s.slm.allocCounter ∧
    (s.boundNewest e).slm.store = s.slm.store ∧ (s.boundNewest e).layout = s.layout ∧ (s.boundNewest e).dle = s.dle ∧
    (s.boundNewest e).ports = s.ports ∧ (s.boundNewest e).rnc = s.rnc ∧ (s.boundNewest e).ntu.pending = s.ntu.pending ∧
    (s.boundNewest e).ntu.enable = s.ntu.enable := by
  unfold State.boundNewest; (repeat' split) <;> (try dsimp only) <;> (try split) <;> simp

@[simp] theorem State.dropFrame_frame (s : State) (n : Nat) (c : DropReason) :
    (s.dropFrame n c).pending = s.pending ∧ (s.dropFrame n c).now = s.now ∧ (s.dropFrame n c).pwrOk = s.pwrOk ∧
    (s.dropFrame n c).ptk = s.ptk ∧ (s.dropFrame n c).tru = s.tru ∧ (s.dropFrame n c).lanes = s.lanes ∧
    (s.dropFrame n c).frt = s.frt ∧ (s.dropFrame n c).slm = s.slm ∧ (s.dropFrame n c).layout = s.layout ∧
    (s.dropFrame n c).dle = s.dle ∧ (s.dropFrame n c).rnc = s.rnc ∧ (s.dropFrame n c).ntu.enable = s.ntu.enable := by
  simp [State.dropFrame]

@[simp] theorem State.openFrame_frame (s : State) (n : Nat) (p : Int) (k : BoundaryKind) :
    (s.openFrame n p k).pending = s.pending ∧ (s.openFrame n p k).now = s.now ∧ (s.openFrame n p k).pwrOk = s.pwrOk ∧
    (s.openFrame n p k).ptk = s.ptk ∧ (s.openFrame n p k).tru = s.tru ∧ (s.openFrame n p k).lanes = s.lanes ∧
    (s.openFrame n p k).slm.record = s.slm.record ∧ (s.openFrame n p k).slm.store = s.slm.store ∧
    (s.openFrame n p k).layout = s.layout ∧ (s.openFrame n p k).dle.routes = s.dle.routes ∧
    (s.openFrame n p k).dle.paused = s.dle.paused ∧ (s.openFrame n p k).dle.rereads = s.dle.rereads ∧
    (s.openFrame n p k).rnc = s.rnc ∧ (s.openFrame n p k).ntu.enable = s.ntu.enable := by
  have h := State.allocate_frame s n p k
  unfold State.openFrame
  split
  · simp
  · split <;> rename_i e <;> rw [e] at h <;> simp at h <;> simp [h]

@[simp] theorem State.takeBoundary_frame (s : State) (t : Int) (k : BoundaryKind) :
    (s.takeBoundary t k).pending = s.pending ∧ (s.takeBoundary t k).now = s.now ∧ (s.takeBoundary t k).pwrOk = s.pwrOk ∧
    (s.takeBoundary t k).ptk = s.ptk ∧ (s.takeBoundary t k).slm.record = s.slm.record ∧
    (s.takeBoundary t k).slm.store = s.slm.store ∧ (s.takeBoundary t k).layout = s.layout ∧
    (s.takeBoundary t k).dle.routes = s.dle.routes ∧ (s.takeBoundary t k).dle.paused = s.dle.paused ∧
    (s.takeBoundary t k).dle.rereads = s.dle.rereads ∧ (s.takeBoundary t k).rnc = s.rnc ∧
    (s.takeBoundary t k).ntu.enable = s.ntu.enable := by
  unfold State.takeBoundary; dsimp only; split <;> simp

@[simp] theorem State.truncateNewest_frame (s : State) (t : Int) :
    (s.truncateNewest t).pending = s.pending ∧ (s.truncateNewest t).now = s.now ∧ (s.truncateNewest t).pwrOk = s.pwrOk ∧
    (s.truncateNewest t).ptk = s.ptk ∧ (s.truncateNewest t).tru = s.tru ∧ (s.truncateNewest t).lanes = s.lanes ∧
    (s.truncateNewest t).slm.record = s.slm.record ∧ (s.truncateNewest t).slm.allocCounter = s.slm.allocCounter ∧
    (s.truncateNewest t).slm.store = s.slm.store ∧ (s.truncateNewest t).layout = s.layout ∧
    (s.truncateNewest t).dle = s.dle ∧ (s.truncateNewest t).ports = s.ports ∧ (s.truncateNewest t).rnc = s.rnc ∧
    (s.truncateNewest t).ntu.pending = s.ntu.pending ∧ (s.truncateNewest t).ntu.enable = s.ntu.enable := by
  unfold State.truncateNewest; (repeat' split) <;> (try dsimp only) <;> (try split) <;> simp

@[simp] theorem State.spurious_frame (s : State) (t : Int) (n : Nat) :
    (s.spurious t n).pending = s.pending ∧ (s.spurious t n).now = s.now ∧ (s.spurious t n).pwrOk = s.pwrOk ∧
    (s.spurious t n).ptk = s.ptk ∧ (s.spurious t n).tru = s.tru ∧ (s.spurious t n).lanes = s.lanes ∧
    (s.spurious t n).frt = s.frt ∧ (s.spurious t n).slm = s.slm ∧ (s.spurious t n).layout = s.layout ∧
    (s.spurious t n).dle = s.dle ∧ (s.spurious t n).rnc = s.rnc ∧ (s.spurious t n).ntu.enable = s.ntu.enable := by
  unfold State.spurious; (repeat' split) <;> simp

@[simp] theorem State.judgeTick_frame (s : State) (t : Int) (n : Nat) :
    (s.judgeTick t n).pending = s.pending ∧ (s.judgeTick t n).now = s.now ∧ (s.judgeTick t n).pwrOk = s.pwrOk ∧
    (s.judgeTick t n).ptk = s.ptk ∧ (s.judgeTick t n).slm.record = s.slm.record ∧ (s.judgeTick t n).slm.store = s.slm.store ∧
    (s.judgeTick t n).layout = s.layout ∧ (s.judgeTick t n).dle.routes = s.dle.routes ∧
    (s.judgeTick t n).dle.paused = s.dle.paused ∧ (s.judgeTick t n).dle.rereads = s.dle.rereads ∧
    (s.judgeTick t n).rnc = s.rnc ∧ (s.judgeTick t n).ntu.enable = s.ntu.enable := by
  unfold State.judgeTick; (repeat' split) <;> (try dsimp only) <;> simp

/-! ## HostPorts -/

@[simp] theorem State.send_frame (s : State) (p : Port) (x : TxSource) (k : Packet) :
    (s.send p x k).pending = s.pending ∧ (s.send p x k).now = s.now ∧ (s.send p x k).pwrOk = s.pwrOk ∧
    (s.send p x k).ptk = s.ptk ∧ (s.send p x k).tru = s.tru ∧ (s.send p x k).lanes = s.lanes ∧ (s.send p x k).frt = s.frt ∧
    (s.send p x k).slm = s.slm ∧ (s.send p x k).layout = s.layout ∧ (s.send p x k).dle = s.dle ∧ (s.send p x k).rnc = s.rnc ∧
    (s.send p x k).ntu = s.ntu := by
  simp [State.send]

@[simp] theorem State.sendSegment_frame (s : State) (p : Port) (r : Fin 8) (d : Delivery) (x : TileSpan) (c n : Nat) :
    (s.sendSegment p r d x c n).pending = s.pending ∧ (s.sendSegment p r d x c n).now = s.now ∧
    (s.sendSegment p r d x c n).pwrOk = s.pwrOk ∧ (s.sendSegment p r d x c n).ptk = s.ptk ∧
    (s.sendSegment p r d x c n).tru = s.tru ∧ (s.sendSegment p r d x c n).lanes = s.lanes ∧
    (s.sendSegment p r d x c n).frt = s.frt ∧ (s.sendSegment p r d x c n).slm = s.slm ∧
    (s.sendSegment p r d x c n).layout = s.layout ∧ (s.sendSegment p r d x c n).dle = s.dle ∧
    (s.sendSegment p r d x c n).rnc = s.rnc ∧ (s.sendSegment p r d x c n).ntu = s.ntu := by
  simp [State.sendSegment]

@[simp] theorem State.continueTile_frame (s : State) (p : Port) (r : Fin 8) :
    (s.continueTile p r).pending = s.pending ∧ (s.continueTile p r).now = s.now ∧ (s.continueTile p r).pwrOk = s.pwrOk ∧
    (s.continueTile p r).ptk = s.ptk ∧ (s.continueTile p r).tru = s.tru ∧ (s.continueTile p r).lanes = s.lanes ∧
    (s.continueTile p r).frt = s.frt ∧ (s.continueTile p r).slm = s.slm ∧ (s.continueTile p r).layout = s.layout ∧
    (s.continueTile p r).dle = s.dle ∧ (s.continueTile p r).rnc = s.rnc ∧ (s.continueTile p r).ntu = s.ntu := by
  unfold State.continueTile; (repeat' split) <;> simp

@[simp] theorem State.beginTile_frame (s : State) (p : Port) (r : Fin 8) (d : Delivery) (c n : Nat) :
    (s.beginTile p r d c n).pending = s.pending ∧ (s.beginTile p r d c n).now = s.now ∧
    (s.beginTile p r d c n).pwrOk = s.pwrOk ∧ (s.beginTile p r d c n).ptk = s.ptk ∧ (s.beginTile p r d c n).tru = s.tru ∧
    (s.beginTile p r d c n).lanes = s.lanes ∧ (s.beginTile p r d c n).frt = s.frt ∧ (s.beginTile p r d c n).slm = s.slm ∧
    (s.beginTile p r d c n).layout = s.layout ∧ (s.beginTile p r d c n).dle.routes = s.dle.routes ∧
    (s.beginTile p r d c n).dle.paused = s.dle.paused ∧ (s.beginTile p r d c n).dle.rereads = s.dle.rereads ∧
    (s.beginTile p r d c n).rnc = s.rnc ∧ (s.beginTile p r d c n).ntu = s.ntu := by
  simp [State.beginTile]

@[simp] theorem State.serveRoute_frame (s : State) (p : Port) (r : Fin 8) :
    (s.serveRoute p r).pending = s.pending ∧ (s.serveRoute p r).now = s.now ∧ (s.serveRoute p r).pwrOk = s.pwrOk ∧
    (s.serveRoute p r).ptk = s.ptk ∧ (s.serveRoute p r).tru = s.tru ∧ (s.serveRoute p r).lanes = s.lanes ∧
    (s.serveRoute p r).frt = s.frt ∧ (s.serveRoute p r).slm = s.slm ∧ (s.serveRoute p r).layout = s.layout ∧
    (s.serveRoute p r).dle.routes = s.dle.routes ∧ (s.serveRoute p r).dle.paused = s.dle.paused ∧
    (s.serveRoute p r).dle.rereads = s.dle.rereads ∧ (s.serveRoute p r).rnc = s.rnc ∧ (s.serveRoute p r).ntu = s.ntu := by
  unfold State.serveRoute; (repeat' split) <;> simp

@[simp] theorem State.serveReread_frame (s : State) (p : Port) :
    (s.serveReread p).pending = s.pending ∧ (s.serveReread p).now = s.now ∧ (s.serveReread p).pwrOk = s.pwrOk ∧
    (s.serveReread p).ptk = s.ptk ∧ (s.serveReread p).tru = s.tru ∧ (s.serveReread p).lanes = s.lanes ∧
    (s.serveReread p).frt = s.frt ∧ (s.serveReread p).slm = s.slm ∧ (s.serveReread p).layout = s.layout ∧
    (s.serveReread p).dle.routes = s.dle.routes ∧ (s.serveReread p).dle.records = s.dle.records ∧
    (s.serveReread p).dle.paused = s.dle.paused ∧ (s.serveReread p).rnc = s.rnc ∧ (s.serveReread p).ntu = s.ntu := by
  unfold State.serveReread; (repeat' split) <;> simp

@[simp] theorem State.serveNext_frame (s : State) (p : Port) :
    (s.serveNext p).pending = s.pending ∧ (s.serveNext p).now = s.now ∧ (s.serveNext p).pwrOk = s.pwrOk ∧
    (s.serveNext p).ptk = s.ptk ∧ (s.serveNext p).tru = s.tru ∧ (s.serveNext p).lanes = s.lanes ∧
    (s.serveNext p).frt = s.frt ∧ (s.serveNext p).slm = s.slm ∧ (s.serveNext p).layout = s.layout ∧
    (s.serveNext p).dle.routes = s.dle.routes ∧ (s.serveNext p).dle.paused = s.dle.paused ∧ (s.serveNext p).rnc = s.rnc ∧
    (s.serveNext p).ntu = s.ntu := by
  unfold State.serveNext; split <;> [skip; (dsimp only; split)] <;> simp

@[simp] theorem State.choose_frame (s : State) (p : Port) :
    (s.choose p).pending = s.pending ∧ (s.choose p).now = s.now ∧ (s.choose p).pwrOk = s.pwrOk ∧ (s.choose p).ptk = s.ptk ∧
    (s.choose p).tru = s.tru ∧ (s.choose p).lanes = s.lanes ∧ (s.choose p).frt = s.frt ∧ (s.choose p).slm = s.slm ∧
    (s.choose p).layout = s.layout ∧ (s.choose p).dle.routes = s.dle.routes ∧ (s.choose p).dle.paused = s.dle.paused ∧
    (s.choose p).rnc = s.rnc ∧ (s.choose p).ntu = s.ntu := by
  unfold State.choose; dsimp only; (repeat' split) <;> simp

@[simp] theorem State.formOpen_frame (s : State) (r : Fin 8) :
    (s.formOpen r).pending = s.pending ∧ (s.formOpen r).now = s.now ∧ (s.formOpen r).pwrOk = s.pwrOk ∧
    (s.formOpen r).ptk = s.ptk ∧ (s.formOpen r).tru = s.tru ∧ (s.formOpen r).lanes = s.lanes ∧ (s.formOpen r).frt = s.frt ∧
    (s.formOpen r).slm = s.slm ∧ (s.formOpen r).layout = s.layout ∧ (s.formOpen r).dle.routes = s.dle.routes ∧
    (s.formOpen r).dle.paused = s.dle.paused ∧ (s.formOpen r).dle.rereads = s.dle.rereads ∧ (s.formOpen r).ports = s.ports ∧
    (s.formOpen r).rnc = s.rnc ∧ (s.formOpen r).ntu = s.ntu := by
  unfold State.formOpen; (repeat' split) <;> simp

@[simp] theorem State.formAll_frame (s : State) (rs : List (Fin 8)) :
    (rs.foldl State.formOpen s).pending = s.pending ∧ (rs.foldl State.formOpen s).now = s.now ∧
    (rs.foldl State.formOpen s).pwrOk = s.pwrOk ∧ (rs.foldl State.formOpen s).ptk = s.ptk ∧
    (rs.foldl State.formOpen s).tru = s.tru ∧ (rs.foldl State.formOpen s).lanes = s.lanes ∧
    (rs.foldl State.formOpen s).frt = s.frt ∧ (rs.foldl State.formOpen s).slm = s.slm ∧
    (rs.foldl State.formOpen s).layout = s.layout ∧ (rs.foldl State.formOpen s).dle.routes = s.dle.routes ∧
    (rs.foldl State.formOpen s).dle.paused = s.dle.paused ∧ (rs.foldl State.formOpen s).dle.rereads = s.dle.rereads ∧
    (rs.foldl State.formOpen s).ports = s.ports ∧ (rs.foldl State.formOpen s).rnc = s.rnc ∧
    (rs.foldl State.formOpen s).ntu = s.ntu := by
  have h := foldl_keeps (fun s : State => (s.pending, s.now, s.pwrOk, s.ptk, s.tru, s.lanes, s.frt, s.slm, s.layout, s.dle.routes, s.dle.paused, s.dle.rereads, s.ports, s.rnc, s.ntu))
    State.formOpen (by intro s x; simp) rs s
  simpa using h

@[simp] theorem State.formOpens_frame (s : State) (p : Port) :
    (s.formOpens p).pending = s.pending ∧ (s.formOpens p).now = s.now ∧ (s.formOpens p).pwrOk = s.pwrOk ∧
    (s.formOpens p).ptk = s.ptk ∧ (s.formOpens p).tru = s.tru ∧ (s.formOpens p).lanes = s.lanes ∧
    (s.formOpens p).frt = s.frt ∧ (s.formOpens p).slm = s.slm ∧ (s.formOpens p).layout = s.layout ∧
    (s.formOpens p).dle.routes = s.dle.routes ∧ (s.formOpens p).dle.paused = s.dle.paused ∧
    (s.formOpens p).dle.rereads = s.dle.rereads ∧ (s.formOpens p).ports = s.ports ∧ (s.formOpens p).rnc = s.rnc ∧
    (s.formOpens p).ntu = s.ntu := by
  unfold State.formOpens; (repeat' split) <;> simp

@[simp] theorem State.startWake_frame (s : State) (p : Port) :
    (s.startWake p).pending = s.pending ∧ (s.startWake p).now = s.now ∧ (s.startWake p).pwrOk = s.pwrOk ∧
    (s.startWake p).ptk = s.ptk ∧ (s.startWake p).tru = s.tru ∧ (s.startWake p).lanes = s.lanes ∧
    (s.startWake p).frt = s.frt ∧ (s.startWake p).slm = s.slm ∧ (s.startWake p).layout = s.layout ∧
    (s.startWake p).dle = s.dle ∧ (s.startWake p).rnc = s.rnc ∧ (s.startWake p).ntu = s.ntu := by
  unfold State.startWake; (repeat' split) <;> simp

@[simp] theorem State.wake_frame (s : State) (p : Port) (b : Bool) :
    (s.wake p b).pending = s.pending ∧ (s.wake p b).now = s.now ∧ (s.wake p b).pwrOk = s.pwrOk ∧ (s.wake p b).ptk = s.ptk ∧
    (s.wake p b).tru = s.tru ∧ (s.wake p b).lanes = s.lanes ∧ (s.wake p b).frt = s.frt ∧ (s.wake p b).slm = s.slm ∧
    (s.wake p b).layout = s.layout ∧ (s.wake p b).dle = s.dle ∧ (s.wake p b).rnc = s.rnc ∧ (s.wake p b).ntu = s.ntu := by
  unfold State.wake; (repeat' split) <;> simp

@[simp] theorem State.idleUpkeep_frame (s : State) (p : Port) :
    (s.idleUpkeep p).pending = s.pending ∧ (s.idleUpkeep p).now = s.now ∧ (s.idleUpkeep p).pwrOk = s.pwrOk ∧
    (s.idleUpkeep p).ptk = s.ptk ∧ (s.idleUpkeep p).tru = s.tru ∧ (s.idleUpkeep p).lanes = s.lanes ∧
    (s.idleUpkeep p).frt = s.frt ∧ (s.idleUpkeep p).slm = s.slm ∧ (s.idleUpkeep p).layout = s.layout ∧
    (s.idleUpkeep p).dle = s.dle ∧ (s.idleUpkeep p).rnc = s.rnc ∧ (s.idleUpkeep p).ntu = s.ntu := by
  simp [State.idleUpkeep]

@[simp] theorem State.beginRest_frame (s : State) (p : Port) :
    (s.beginRest p).pending = s.pending ∧ (s.beginRest p).now = s.now ∧ (s.beginRest p).pwrOk = s.pwrOk ∧
    (s.beginRest p).ptk = s.ptk ∧ (s.beginRest p).tru = s.tru ∧ (s.beginRest p).lanes = s.lanes ∧
    (s.beginRest p).frt = s.frt ∧ (s.beginRest p).slm = s.slm ∧ (s.beginRest p).layout = s.layout ∧
    (s.beginRest p).dle = s.dle ∧ (s.beginRest p).rnc = s.rnc ∧ (s.beginRest p).ntu = s.ntu := by
  simp [State.beginRest]

@[simp] theorem State.judgeRest_frame (s : State) (p : Port) :
    (s.judgeRest p).pending = s.pending ∧ (s.judgeRest p).now = s.now ∧ (s.judgeRest p).pwrOk = s.pwrOk ∧
    (s.judgeRest p).ptk = s.ptk ∧ (s.judgeRest p).tru = s.tru ∧ (s.judgeRest p).lanes = s.lanes ∧
    (s.judgeRest p).frt = s.frt ∧ (s.judgeRest p).slm = s.slm ∧ (s.judgeRest p).layout = s.layout ∧
    (s.judgeRest p).dle = s.dle ∧ (s.judgeRest p).rnc = s.rnc ∧ (s.judgeRest p).ntu = s.ntu := by
  unfold State.judgeRest; (repeat' split) <;> simp

@[simp] theorem State.settlePort_frame (s : State) (p : Port) (b : Bool) :
    (s.settlePort p b).pending = s.pending ∧ (s.settlePort p b).now = s.now ∧ (s.settlePort p b).pwrOk = s.pwrOk ∧
    (s.settlePort p b).ptk = s.ptk ∧ (s.settlePort p b).tru = s.tru ∧ (s.settlePort p b).lanes = s.lanes ∧
    (s.settlePort p b).frt = s.frt ∧ (s.settlePort p b).slm = s.slm ∧ (s.settlePort p b).layout = s.layout ∧
    (s.settlePort p b).dle.routes = s.dle.routes ∧ (s.settlePort p b).dle.paused = s.dle.paused ∧
    (s.settlePort p b).rnc = s.rnc ∧ (s.settlePort p b).ntu = s.ntu := by
  simp [State.settlePort]

@[simp] theorem State.settle_frame (s : State) (b : Bool) :
    (s.settle b).pending = s.pending ∧ (s.settle b).now = s.now ∧ (s.settle b).pwrOk = s.pwrOk ∧ (s.settle b).ptk = s.ptk ∧
    (s.settle b).tru = s.tru ∧ (s.settle b).lanes = s.lanes ∧ (s.settle b).frt = s.frt ∧ (s.settle b).slm = s.slm ∧
    (s.settle b).layout = s.layout ∧ (s.settle b).dle.routes = s.dle.routes ∧ (s.settle b).dle.paused = s.dle.paused ∧
    (s.settle b).rnc = s.rnc ∧ (s.settle b).ntu = s.ntu := by
  simp [State.settle]

@[simp] theorem State.finishTx_frame (s : State) (p : Port) (k : Packet) :
    (s.finishTx p k).pending = s.pending ∧ (s.finishTx p k).now = s.now ∧ (s.finishTx p k).pwrOk = s.pwrOk ∧
    (s.finishTx p k).ptk = s.ptk ∧ (s.finishTx p k).tru = s.tru ∧ (s.finishTx p k).lanes = s.lanes ∧
    (s.finishTx p k).frt = s.frt ∧ (s.finishTx p k).slm = s.slm ∧ (s.finishTx p k).layout = s.layout ∧
    (s.finishTx p k).dle = s.dle ∧ (s.finishTx p k).rnc = s.rnc ∧ (s.finishTx p k).ntu.pending = s.ntu.pending ∧
    (s.finishTx p k).ntu.enable = s.ntu.enable := by
  simp [State.finishTx]

@[simp] theorem State.reply_frame (s : State) (p : Port) (c : InPacket) (x : Result) (b : List Byte) :
    (s.reply p c x b).pending = s.pending ∧ (s.reply p c x b).now = s.now ∧ (s.reply p c x b).pwrOk = s.pwrOk ∧
    (s.reply p c x b).ptk = s.ptk ∧ (s.reply p c x b).tru = s.tru ∧ (s.reply p c x b).lanes = s.lanes ∧
    (s.reply p c x b).frt = s.frt ∧ (s.reply p c x b).slm = s.slm ∧ (s.reply p c x b).layout = s.layout ∧
    (s.reply p c x b).dle = s.dle ∧ (s.reply p c x b).rnc = s.rnc ∧ (s.reply p c x b).ntu = s.ntu := by
  simp [State.reply]

@[simp] theorem State.portRecordInForce_frame (s : State) (p : Port) (r : PortRecord) :
    (s.portRecordInForce p r).pending = s.pending ∧ (s.portRecordInForce p r).now = s.now ∧
    (s.portRecordInForce p r).pwrOk = s.pwrOk ∧ (s.portRecordInForce p r).ptk = s.ptk ∧
    (s.portRecordInForce p r).tru = s.tru ∧ (s.portRecordInForce p r).lanes = s.lanes ∧
    (s.portRecordInForce p r).frt = s.frt ∧ (s.portRecordInForce p r).slm = s.slm ∧
    (s.portRecordInForce p r).layout = s.layout ∧ (s.portRecordInForce p r).dle = s.dle ∧
    (s.portRecordInForce p r).rnc = s.rnc ∧ (s.portRecordInForce p r).ntu = s.ntu := by
  unfold State.portRecordInForce; (repeat' split) <;> simp

@[simp] theorem State.answerHeld_frame (s : State) (n p : Port) :
    (s.answerHeld n p).pending = s.pending ∧ (s.answerHeld n p).now = s.now ∧ (s.answerHeld n p).pwrOk = s.pwrOk ∧
    (s.answerHeld n p).ptk = s.ptk ∧ (s.answerHeld n p).tru = s.tru ∧ (s.answerHeld n p).lanes = s.lanes ∧
    (s.answerHeld n p).frt = s.frt ∧ (s.answerHeld n p).slm = s.slm ∧ (s.answerHeld n p).layout = s.layout ∧
    (s.answerHeld n p).dle = s.dle ∧ (s.answerHeld n p).ntu = s.ntu := by
  unfold State.answerHeld; (repeat' split) <;> simp

/-! ## Position -/

@[simp] theorem State.moved_frame (s : State) :
    s.moved.pending = s.pending ∧ s.moved.now = s.now ∧ s.moved.pwrOk = s.pwrOk ∧ s.moved.tru = s.tru ∧
    s.moved.lanes = s.lanes ∧ s.moved.frt = s.frt ∧ s.moved.slm = s.slm ∧ s.moved.layout = s.layout ∧ s.moved.dle = s.dle ∧
    s.moved.rnc = s.rnc ∧ s.moved.ntu.enable = s.ntu.enable ∧ s.moved.ntu.counters = s.ntu.counters := by
  unfold State.moved; (repeat' split) <;> simp

@[simp] theorem State.enterStalled_frame (s : State) :
    s.enterStalled.pending = s.pending ∧ s.enterStalled.now = s.now ∧ s.enterStalled.pwrOk = s.pwrOk ∧
    s.enterStalled.tru = s.tru ∧ s.enterStalled.lanes = s.lanes ∧ s.enterStalled.frt = s.frt ∧ s.enterStalled.slm = s.slm ∧
    s.enterStalled.layout = s.layout ∧ s.enterStalled.dle = s.dle ∧ s.enterStalled.rnc = s.rnc ∧
    s.enterStalled.ntu.enable = s.ntu.enable ∧ s.enterStalled.ntu.counters = s.ntu.counters := by
  simp [State.enterStalled]

@[simp] theorem State.handTick_frame (s : State) :
    s.handTick.pending = s.pending ∧ s.handTick.now = s.now ∧ s.handTick.pwrOk = s.pwrOk ∧
    s.handTick.slm.record = s.slm.record ∧ s.handTick.slm.store = s.slm.store ∧ s.handTick.layout = s.layout ∧
    s.handTick.dle.routes = s.dle.routes ∧ s.handTick.dle.paused = s.dle.paused ∧ s.handTick.dle.rereads = s.dle.rereads ∧
    s.handTick.rnc = s.rnc ∧ s.handTick.ntu.enable = s.ntu.enable := by
  simp [State.handTick]

@[simp] theorem State.emitTick_frame (s : State) :
    s.emitTick.pending = s.pending ∧ s.emitTick.now = s.now ∧ s.emitTick.pwrOk = s.pwrOk ∧
    s.emitTick.slm.record = s.slm.record ∧ s.emitTick.slm.store = s.slm.store ∧ s.emitTick.layout = s.layout ∧
    s.emitTick.dle.routes = s.dle.routes ∧ s.emitTick.dle.paused = s.dle.paused ∧ s.emitTick.dle.rereads = s.dle.rereads ∧
    s.emitTick.rnc = s.rnc ∧ s.emitTick.ntu.enable = s.ntu.enable := by
  unfold State.emitTick; dsimp only; split <;> simp

@[simp] theorem State.encoderErrorCounted_frame (s : State) :
    s.encoderErrorCounted.pending = s.pending ∧ s.encoderErrorCounted.now = s.now ∧ s.encoderErrorCounted.pwrOk = s.pwrOk ∧
    s.encoderErrorCounted.ptk = s.ptk ∧ s.encoderErrorCounted.tru = s.tru ∧ s.encoderErrorCounted.lanes = s.lanes ∧
    s.encoderErrorCounted.frt = s.frt ∧ s.encoderErrorCounted.slm = s.slm ∧ s.encoderErrorCounted.layout = s.layout ∧
    s.encoderErrorCounted.dle = s.dle ∧ s.encoderErrorCounted.ports = s.ports ∧ s.encoderErrorCounted.rnc = s.rnc ∧
    s.encoderErrorCounted.ntu.pending = s.ntu.pending ∧ s.encoderErrorCounted.ntu.enable = s.ntu.enable := by
  simp [State.encoderErrorCounted]

@[simp] theorem State.forwardCount_frame (s : State) :
    s.forwardCount.pending = s.pending ∧ s.forwardCount.now = s.now ∧ s.forwardCount.pwrOk = s.pwrOk ∧
    s.forwardCount.slm.record = s.slm.record ∧ s.forwardCount.slm.store = s.slm.store ∧ s.forwardCount.layout = s.layout ∧
    s.forwardCount.dle.routes = s.dle.routes ∧ s.forwardCount.dle.paused = s.dle.paused ∧
    s.forwardCount.dle.rereads = s.dle.rereads ∧ s.forwardCount.rnc = s.rnc ∧ s.forwardCount.ntu.enable = s.ntu.enable := by
  unfold State.forwardCount; dsimp only; (repeat' split) <;> simp

@[simp] theorem State.rewind_frame (s : State) :
    s.rewind.pending = s.pending ∧ s.rewind.now = s.now ∧ s.rewind.pwrOk = s.pwrOk ∧ s.rewind.tru = s.tru ∧
    s.rewind.lanes = s.lanes ∧ s.rewind.slm.record = s.slm.record ∧ s.rewind.slm.allocCounter = s.slm.allocCounter ∧
    s.rewind.slm.store = s.slm.store ∧ s.rewind.layout = s.layout ∧ s.rewind.dle.routes = s.dle.routes ∧
    s.rewind.dle.paused = s.dle.paused ∧ s.rewind.dle.rereads = s.dle.rereads ∧ s.rewind.rnc = s.rnc ∧
    s.rewind.ntu.enable = s.ntu.enable := by
  unfold State.rewind; dsimp only; split <;> simp

@[simp] theorem State.reverseCount_frame (s : State) :
    s.reverseCount.pending = s.pending ∧ s.reverseCount.now = s.now ∧ s.reverseCount.pwrOk = s.pwrOk ∧
    s.reverseCount.tru = s.tru ∧ s.reverseCount.lanes = s.lanes ∧ s.reverseCount.slm.record = s.slm.record ∧
    s.reverseCount.slm.allocCounter = s.slm.allocCounter ∧ s.reverseCount.slm.store = s.slm.store ∧
    s.reverseCount.layout = s.layout ∧ s.reverseCount.dle.routes = s.dle.routes ∧ s.reverseCount.dle.paused = s.dle.paused ∧
    s.reverseCount.dle.rereads = s.dle.rereads ∧ s.reverseCount.rnc = s.rnc ∧ s.reverseCount.ntu.enable = s.ntu.enable := by
  unfold State.reverseCount; dsimp only; (repeat' split) <;> simp

@[simp] theorem State.takeCount_frame (s : State) (l : EncLine) :
    (s.takeCount l).pending = s.pending ∧ (s.takeCount l).now = s.now ∧ (s.takeCount l).pwrOk = s.pwrOk ∧
    (s.takeCount l).slm.record = s.slm.record ∧ (s.takeCount l).slm.store = s.slm.store ∧ (s.takeCount l).layout = s.layout ∧
    (s.takeCount l).dle.routes = s.dle.routes ∧ (s.takeCount l).dle.paused = s.dle.paused ∧
    (s.takeCount l).dle.rereads = s.dle.rereads ∧ (s.takeCount l).rnc = s.rnc ∧ (s.takeCount l).ntu.enable = s.ntu.enable := by
  unfold State.takeCount; dsimp only; split <;> simp

/-! ## Lanes -/

@[simp] theorem State.resolveRecord_frame (s : State) (l : Fin 8) (c : FillCause) (q : TrigRecord) :
    (s.resolveRecord l c q).pending = s.pending ∧ (s.resolveRecord l c q).now = s.now ∧
    (s.resolveRecord l c q).pwrOk = s.pwrOk ∧ (s.resolveRecord l c q).ptk = s.ptk ∧ (s.resolveRecord l c q).tru = s.tru ∧
    (s.resolveRecord l c q).lanes = s.lanes ∧ (s.resolveRecord l c q).frt = s.frt ∧
    (s.resolveRecord l c q).slm.record = s.slm.record ∧ (s.resolveRecord l c q).slm.allocCounter = s.slm.allocCounter ∧
    (s.resolveRecord l c q).slm.store = s.slm.store ∧ (s.resolveRecord l c q).layout = s.layout ∧
    (s.resolveRecord l c q).dle = s.dle ∧ (s.resolveRecord l c q).ports = s.ports ∧ (s.resolveRecord l c q).rnc = s.rnc ∧
    (s.resolveRecord l c q).ntu.pending = s.ntu.pending ∧ (s.resolveRecord l c q).ntu.enable = s.ntu.enable := by
  unfold State.resolveRecord; (repeat' split) <;> simp

@[simp] theorem State.loseRecord_frame (s : State) (l : Fin 8) (q : TrigRecord) :
    (s.loseRecord l q).pending = s.pending ∧ (s.loseRecord l q).now = s.now ∧ (s.loseRecord l q).pwrOk = s.pwrOk ∧
    (s.loseRecord l q).ptk = s.ptk ∧ (s.loseRecord l q).tru = s.tru ∧ (s.loseRecord l q).lanes = s.lanes ∧
    (s.loseRecord l q).frt = s.frt ∧ (s.loseRecord l q).slm.record = s.slm.record ∧
    (s.loseRecord l q).slm.allocCounter = s.slm.allocCounter ∧ (s.loseRecord l q).slm.store = s.slm.store ∧
    (s.loseRecord l q).layout = s.layout ∧ (s.loseRecord l q).dle = s.dle ∧ (s.loseRecord l q).ports = s.ports ∧
    (s.loseRecord l q).rnc = s.rnc ∧ (s.loseRecord l q).ntu.pending = s.ntu.pending ∧
    (s.loseRecord l q).ntu.enable = s.ntu.enable := by
  simp [State.loseRecord]

@[simp] theorem State.loseRecords_frame (s : State) (l : Fin 8) (qs : List TrigRecord) :
    (qs.foldl (fun s q => s.loseRecord l q) s).pending = s.pending ∧ (qs.foldl (fun s q => s.loseRecord l q) s).now = s.now ∧
    (qs.foldl (fun s q => s.loseRecord l q) s).pwrOk = s.pwrOk ∧ (qs.foldl (fun s q => s.loseRecord l q) s).ptk = s.ptk ∧
    (qs.foldl (fun s q => s.loseRecord l q) s).tru = s.tru ∧ (qs.foldl (fun s q => s.loseRecord l q) s).lanes = s.lanes ∧
    (qs.foldl (fun s q => s.loseRecord l q) s).frt = s.frt ∧
    (qs.foldl (fun s q => s.loseRecord l q) s).slm.record = s.slm.record ∧
    (qs.foldl (fun s q => s.loseRecord l q) s).slm.allocCounter = s.slm.allocCounter ∧
    (qs.foldl (fun s q => s.loseRecord l q) s).slm.store = s.slm.store ∧
    (qs.foldl (fun s q => s.loseRecord l q) s).layout = s.layout ∧ (qs.foldl (fun s q => s.loseRecord l q) s).dle = s.dle ∧
    (qs.foldl (fun s q => s.loseRecord l q) s).ports = s.ports ∧ (qs.foldl (fun s q => s.loseRecord l q) s).rnc = s.rnc ∧
    (qs.foldl (fun s q => s.loseRecord l q) s).ntu.pending = s.ntu.pending ∧
    (qs.foldl (fun s q => s.loseRecord l q) s).ntu.enable = s.ntu.enable := by
  have h := foldl_keeps (fun s : State => (s.pending, s.now, s.pwrOk, s.ptk, s.tru, s.lanes, s.frt, s.slm.record, s.slm.allocCounter, s.slm.store, s.layout, s.dle, s.ports, s.rnc, s.ntu.pending, s.ntu.enable))
    (fun s q => s.loseRecord l q) (by intro s x; simp) qs s
  simpa using h

@[simp] theorem State.laneUp_frame (s : State) (l : Fin 8) :
    (s.laneUp l).pending = s.pending ∧ (s.laneUp l).now = s.now ∧ (s.laneUp l).pwrOk = s.pwrOk ∧ (s.laneUp l).ptk = s.ptk ∧
    (s.laneUp l).tru = s.tru ∧ (s.laneUp l).frt = s.frt ∧ (s.laneUp l).slm = s.slm ∧ (s.laneUp l).layout = s.layout ∧
    (s.laneUp l).dle = s.dle ∧ (s.laneUp l).rnc = s.rnc ∧ (s.laneUp l).ntu.enable = s.ntu.enable ∧
    (s.laneUp l).ntu.counters = s.ntu.counters := by
  unfold State.laneUp; dsimp only; (repeat' split) <;> simp

@[simp] theorem State.resolveRecords_frame (s : State) (l : Fin 8) (c : FillCause) (qs : List TrigRecord) :
    (qs.foldl (fun s q => s.resolveRecord l c q) s).pending = s.pending ∧
    (qs.foldl (fun s q => s.resolveRecord l c q) s).now = s.now ∧
    (qs.foldl (fun s q => s.resolveRecord l c q) s).pwrOk = s.pwrOk ∧
    (qs.foldl (fun s q => s.resolveRecord l c q) s).ptk = s.ptk ∧
    (qs.foldl (fun s q => s.resolveRecord l c q) s).tru = s.tru ∧
    (qs.foldl (fun s q => s.resolveRecord l c q) s).lanes = s.lanes ∧
    (qs.foldl (fun s q => s.resolveRecord l c q) s).frt = s.frt ∧
    (qs.foldl (fun s q => s.resolveRecord l c q) s).slm.record = s.slm.record ∧
    (qs.foldl (fun s q => s.resolveRecord l c q) s).slm.allocCounter = s.slm.allocCounter ∧
    (qs.foldl (fun s q => s.resolveRecord l c q) s).slm.store = s.slm.store ∧
    (qs.foldl (fun s q => s.resolveRecord l c q) s).layout = s.layout ∧
    (qs.foldl (fun s q => s.resolveRecord l c q) s).dle = s.dle ∧
    (qs.foldl (fun s q => s.resolveRecord l c q) s).ports = s.ports ∧
    (qs.foldl (fun s q => s.resolveRecord l c q) s).rnc = s.rnc ∧
    (qs.foldl (fun s q => s.resolveRecord l c q) s).ntu.pending = s.ntu.pending ∧
    (qs.foldl (fun s q => s.resolveRecord l c q) s).ntu.enable = s.ntu.enable := by
  have h := foldl_keeps (fun s : State => (s.pending, s.now, s.pwrOk, s.ptk, s.tru, s.lanes, s.frt, s.slm.record, s.slm.allocCounter, s.slm.store, s.layout, s.dle, s.ports, s.rnc, s.ntu.pending, s.ntu.enable))
    (fun s q => s.resolveRecord l c q) (by intro s x; simp) qs s
  simpa using h

@[simp] theorem State.fillMarks_frame (s : State) (l : Fin 8) (c : FillCause) (ys : List Placement) :
    (ys.foldl (fun s y => s.fillMark l y.plane y.position c) s).pending = s.pending ∧
    (ys.foldl (fun s y => s.fillMark l y.plane y.position c) s).now = s.now ∧
    (ys.foldl (fun s y => s.fillMark l y.plane y.position c) s).pwrOk = s.pwrOk ∧
    (ys.foldl (fun s y => s.fillMark l y.plane y.position c) s).ptk = s.ptk ∧
    (ys.foldl (fun s y => s.fillMark l y.plane y.position c) s).tru = s.tru ∧
    (ys.foldl (fun s y => s.fillMark l y.plane y.position c) s).lanes = s.lanes ∧
    (ys.foldl (fun s y => s.fillMark l y.plane y.position c) s).frt = s.frt ∧
    (ys.foldl (fun s y => s.fillMark l y.plane y.position c) s).slm.record = s.slm.record ∧
    (ys.foldl (fun s y => s.fillMark l y.plane y.position c) s).slm.allocCounter = s.slm.allocCounter ∧
    (ys.foldl (fun s y => s.fillMark l y.plane y.position c) s).slm.store = s.slm.store ∧
    (ys.foldl (fun s y => s.fillMark l y.plane y.position c) s).layout = s.layout ∧
    (ys.foldl (fun s y => s.fillMark l y.plane y.position c) s).dle = s.dle ∧
    (ys.foldl (fun s y => s.fillMark l y.plane y.position c) s).ports = s.ports ∧
    (ys.foldl (fun s y => s.fillMark l y.plane y.position c) s).rnc = s.rnc ∧
    (ys.foldl (fun s y => s.fillMark l y.plane y.position c) s).ntu.pending = s.ntu.pending ∧
    (ys.foldl (fun s y => s.fillMark l y.plane y.position c) s).ntu.enable = s.ntu.enable := by
  have h := foldl_keeps (fun s : State => (s.pending, s.now, s.pwrOk, s.ptk, s.tru, s.lanes, s.frt, s.slm.record, s.slm.allocCounter, s.slm.store, s.layout, s.dle, s.ports, s.rnc, s.ntu.pending, s.ntu.enable))
    (fun s y => s.fillMark l y.plane y.position c) (by intro s x; simp) ys s
  simpa using h

@[simp] theorem State.laneLost_frame (s : State) (l : Fin 8) :
    (s.laneLost l).pending = s.pending ∧ (s.laneLost l).now = s.now ∧ (s.laneLost l).pwrOk = s.pwrOk ∧
    (s.laneLost l).ptk = s.ptk ∧ (s.laneLost l).tru = s.tru ∧ (s.laneLost l).slm.record = s.slm.record ∧
    (s.laneLost l).slm.allocCounter = s.slm.allocCounter ∧ (s.laneLost l).slm.store = s.slm.store ∧
    (s.laneLost l).layout = s.layout ∧ (s.laneLost l).dle.routes = s.dle.routes ∧ (s.laneLost l).dle.paused = s.dle.paused ∧
    (s.laneLost l).dle.rereads = s.dle.rereads ∧ (s.laneLost l).rnc = s.rnc ∧ (s.laneLost l).ntu.enable = s.ntu.enable := by
  unfold State.laneLost; dsimp only; split <;> simp

@[simp] theorem State.dropOrphans_frame (s : State) (l : Fin 8) (ys : List Placement) :
    (s.dropOrphans l ys).pending = s.pending ∧ (s.dropOrphans l ys).now = s.now ∧ (s.dropOrphans l ys).pwrOk = s.pwrOk ∧
    (s.dropOrphans l ys).ptk = s.ptk ∧ (s.dropOrphans l ys).tru = s.tru ∧ (s.dropOrphans l ys).frt = s.frt ∧
    (s.dropOrphans l ys).slm = s.slm ∧ (s.dropOrphans l ys).layout = s.layout ∧ (s.dropOrphans l ys).dle = s.dle ∧
    (s.dropOrphans l ys).ports = s.ports ∧ (s.dropOrphans l ys).rnc = s.rnc ∧
    (s.dropOrphans l ys).ntu.pending = s.ntu.pending ∧ (s.dropOrphans l ys).ntu.enable = s.ntu.enable := by
  induction ys generalizing s with
  | nil => simp [State.dropOrphans]
  | cons y ys ih =>
    unfold State.dropOrphans
    split <;> simp [ih]

@[simp] theorem State.place_frame (s : State) (l : Fin 8) (q : TrigRecord) (n : Nat) (line : List Byte) :
    (s.place l q n line).pending = s.pending ∧ (s.place l q n line).now = s.now ∧ (s.place l q n line).pwrOk = s.pwrOk ∧
    (s.place l q n line).ptk = s.ptk ∧ (s.place l q n line).tru = s.tru ∧ (s.place l q n line).frt = s.frt ∧
    (s.place l q n line).slm = s.slm ∧ (s.place l q n line).layout = s.layout ∧ (s.place l q n line).dle = s.dle ∧
    (s.place l q n line).ports = s.ports ∧ (s.place l q n line).rnc = s.rnc ∧
    (s.place l q n line).ntu.pending = s.ntu.pending ∧ (s.place l q n line).ntu.enable = s.ntu.enable := by
  unfold State.place; dsimp only; (repeat' split) <;> simp

@[simp] theorem State.takeLine_frame (s : State) (l : Fin 8) (q : TrigRecord) (h : Header) (c : CheckMark) (line : List Byte) :
    (s.takeLine l q h c line).pending = s.pending ∧ (s.takeLine l q h c line).now = s.now ∧
    (s.takeLine l q h c line).pwrOk = s.pwrOk ∧ (s.takeLine l q h c line).ptk = s.ptk ∧
    (s.takeLine l q h c line).tru = s.tru ∧ (s.takeLine l q h c line).frt = s.frt ∧
    (s.takeLine l q h c line).slm.record = s.slm.record ∧ (s.takeLine l q h c line).slm.allocCounter = s.slm.allocCounter ∧
    (s.takeLine l q h c line).slm.store = s.slm.store ∧ (s.takeLine l q h c line).layout = s.layout ∧
    (s.takeLine l q h c line).dle = s.dle ∧ (s.takeLine l q h c line).ports = s.ports ∧
    (s.takeLine l q h c line).rnc = s.rnc ∧ (s.takeLine l q h c line).ntu.pending = s.ntu.pending ∧
    (s.takeLine l q h c line).ntu.enable = s.ntu.enable := by
  unfold State.takeLine; (repeat' split) <;> simp

@[simp] theorem State.matchLine_frame (s : State) (l : Fin 8) (h : Header) (c : CheckMark) (line : List Byte) :
    (s.matchLine l h c line).pending = s.pending ∧ (s.matchLine l h c line).now = s.now ∧
    (s.matchLine l h c line).pwrOk = s.pwrOk ∧ (s.matchLine l h c line).ptk = s.ptk ∧ (s.matchLine l h c line).tru = s.tru ∧
    (s.matchLine l h c line).frt = s.frt ∧ (s.matchLine l h c line).slm.record = s.slm.record ∧
    (s.matchLine l h c line).slm.allocCounter = s.slm.allocCounter ∧ (s.matchLine l h c line).slm.store = s.slm.store ∧
    (s.matchLine l h c line).layout = s.layout ∧ (s.matchLine l h c line).dle = s.dle ∧
    (s.matchLine l h c line).ports = s.ports ∧ (s.matchLine l h c line).rnc = s.rnc ∧
    (s.matchLine l h c line).ntu.pending = s.ntu.pending ∧ (s.matchLine l h c line).ntu.enable = s.ntu.enable := by
  unfold State.matchLine; dsimp only; (repeat' split) <;> simp

@[simp] theorem State.receiveLane_frame (s : State) (l : Fin 8) (b : List Byte) :
    (s.receiveLane l b).pending = s.pending ∧ (s.receiveLane l b).now = s.now ∧ (s.receiveLane l b).pwrOk = s.pwrOk ∧
    (s.receiveLane l b).ptk = s.ptk ∧ (s.receiveLane l b).tru = s.tru ∧ (s.receiveLane l b).frt = s.frt ∧
    (s.receiveLane l b).slm.record = s.slm.record ∧ (s.receiveLane l b).slm.allocCounter = s.slm.allocCounter ∧
    (s.receiveLane l b).slm.store = s.slm.store ∧ (s.receiveLane l b).layout = s.layout ∧ (s.receiveLane l b).dle = s.dle ∧
    (s.receiveLane l b).ports = s.ports ∧ (s.receiveLane l b).rnc = s.rnc ∧ (s.receiveLane l b).ntu.pending = s.ntu.pending ∧
    (s.receiveLane l b).ntu.enable = s.ntu.enable := by
  unfold State.receiveLane; dsimp only; (repeat' split) <;> simp

@[simp] theorem State.finishPlacement_frame (s : State) (l : Fin 8) (y : Placement) (ys : List Placement) :
    (s.finishPlacement l y ys).pending = s.pending ∧ (s.finishPlacement l y ys).now = s.now ∧
    (s.finishPlacement l y ys).pwrOk = s.pwrOk ∧ (s.finishPlacement l y ys).ptk = s.ptk ∧
    (s.finishPlacement l y ys).tru = s.tru ∧ (s.finishPlacement l y ys).frt = s.frt ∧
    (s.finishPlacement l y ys).slm.record = s.slm.record ∧ (s.finishPlacement l y ys).slm.allocCounter = s.slm.allocCounter ∧
    (s.finishPlacement l y ys).layout = s.layout ∧ (s.finishPlacement l y ys).dle = s.dle ∧
    (s.finishPlacement l y ys).ports = s.ports ∧ (s.finishPlacement l y ys).rnc = s.rnc ∧
    (s.finishPlacement l y ys).ntu.pending = s.ntu.pending ∧ (s.finishPlacement l y ys).ntu.enable = s.ntu.enable := by
  unfold State.finishPlacement; dsimp only; (repeat' split) <;> simp

@[simp] theorem State.expireRecords_frame (s : State) (l : Fin 8) :
    (s.expireRecords l).pending = s.pending ∧ (s.expireRecords l).now = s.now ∧ (s.expireRecords l).pwrOk = s.pwrOk ∧
    (s.expireRecords l).ptk = s.ptk ∧ (s.expireRecords l).tru = s.tru ∧ (s.expireRecords l).frt = s.frt ∧
    (s.expireRecords l).slm.record = s.slm.record ∧ (s.expireRecords l).slm.allocCounter = s.slm.allocCounter ∧
    (s.expireRecords l).slm.store = s.slm.store ∧ (s.expireRecords l).layout = s.layout ∧ (s.expireRecords l).dle = s.dle ∧
    (s.expireRecords l).ports = s.ports ∧ (s.expireRecords l).rnc = s.rnc ∧ (s.expireRecords l).ntu.pending = s.ntu.pending ∧
    (s.expireRecords l).ntu.enable = s.ntu.enable := by
  simp [State.expireRecords]

/-! ## Commands -/

@[simp] theorem State.enterRunState_frame (s : State) (r : RunState) :
    (s.enterRunState r).pending = s.pending ∧ (s.enterRunState r).now = s.now ∧ (s.enterRunState r).pwrOk = s.pwrOk ∧
    (s.enterRunState r).ptk = s.ptk ∧ (s.enterRunState r).tru = s.tru ∧ (s.enterRunState r).lanes = s.lanes ∧
    (s.enterRunState r).frt = s.frt ∧ (s.enterRunState r).slm = s.slm ∧ (s.enterRunState r).layout = s.layout ∧
    (s.enterRunState r).dle = s.dle ∧ (s.enterRunState r).ntu.enable = s.ntu.enable ∧
    (s.enterRunState r).ntu.counters = s.ntu.counters := by
  simp [State.enterRunState]

@[simp] theorem State.freeRunSlots_frame (s : State) :
    s.freeRunSlots.pending = s.pending ∧ s.freeRunSlots.now = s.now ∧ s.freeRunSlots.pwrOk = s.pwrOk ∧
    s.freeRunSlots.ptk = s.ptk ∧ s.freeRunSlots.tru = s.tru ∧ s.freeRunSlots.lanes = s.lanes ∧ s.freeRunSlots.frt = s.frt ∧
    s.freeRunSlots.slm.record = s.slm.record ∧ s.freeRunSlots.slm.allocCounter = s.slm.allocCounter ∧
    s.freeRunSlots.slm.store = s.slm.store ∧ s.freeRunSlots.layout = s.layout ∧ s.freeRunSlots.dle.routes = s.dle.routes ∧
    s.freeRunSlots.dle.paused = s.dle.paused ∧ s.freeRunSlots.dle.rereads = s.dle.rereads ∧ s.freeRunSlots.ports = s.ports ∧
    s.freeRunSlots.rnc = s.rnc ∧ s.freeRunSlots.ntu = s.ntu := by
  have h := fun u : State => foldl_keeps (fun s : State => (s.pending, s.now, s.pwrOk, s.ptk, s.tru, s.lanes, s.frt, s.slm.record, s.slm.allocCounter, s.slm.store, s.layout, s.dle.routes, s.dle.paused, s.dle.rereads, s.ports, s.rnc, s.ntu))
    (fun s i => if (s.slot i).state = .free ∨ (s.slot i).state = .held then s else s.freeSlot i) (by intro s i; split <;> simp) (List.range s.slm.slots.length) u
  simp only [Prod.mk.injEq] at h
  simp [State.freeRunSlots, h]

@[simp] theorem State.startRun_frame (s : State) :
    s.startRun.pending = s.pending ∧ s.startRun.now = s.now ∧ s.startRun.pwrOk = s.pwrOk ∧
    s.startRun.slm.record = s.slm.record ∧ s.startRun.slm.allocCounter = s.slm.allocCounter ∧
    s.startRun.slm.store = s.slm.store ∧ s.startRun.layout = s.layout ∧ s.startRun.dle.routes = s.dle.routes ∧
    s.startRun.dle.paused = s.dle.paused ∧ s.startRun.dle.rereads = s.dle.rereads ∧ s.startRun.ntu.enable = s.ntu.enable ∧
    s.startRun.ntu.counters = s.ntu.counters := by
  simp [State.startRun]

@[simp] theorem State.finalize_frame (s : State) (r : Fin 8) (d : Delivery) (x : RecordState) :
    (s.finalize r d x).pending = s.pending ∧ (s.finalize r d x).now = s.now ∧ (s.finalize r d x).pwrOk = s.pwrOk ∧
    (s.finalize r d x).ptk = s.ptk ∧ (s.finalize r d x).tru = s.tru ∧ (s.finalize r d x).lanes = s.lanes ∧
    (s.finalize r d x).frt = s.frt ∧ (s.finalize r d x).slm.record = s.slm.record ∧
    (s.finalize r d x).slm.allocCounter = s.slm.allocCounter ∧ (s.finalize r d x).slm.store = s.slm.store ∧
    (s.finalize r d x).layout = s.layout ∧ (s.finalize r d x).dle.routes = s.dle.routes ∧
    (s.finalize r d x).dle.paused = s.dle.paused ∧ (s.finalize r d x).dle.rereads = s.dle.rereads ∧
    (s.finalize r d x).ports = s.ports ∧ (s.finalize r d x).rnc = s.rnc ∧ (s.finalize r d x).ntu = s.ntu := by
  simp [State.finalize]

@[simp] theorem State.finalizeAll_frame (s : State) (r : Fin 8) (x : RecordState) (ds : List Delivery) :
    (ds.foldl (fun s d => s.finalize r d x) s).pending = s.pending ∧ (ds.foldl (fun s d => s.finalize r d x) s).now = s.now ∧
    (ds.foldl (fun s d => s.finalize r d x) s).pwrOk = s.pwrOk ∧ (ds.foldl (fun s d => s.finalize r d x) s).ptk = s.ptk ∧
    (ds.foldl (fun s d => s.finalize r d x) s).tru = s.tru ∧ (ds.foldl (fun s d => s.finalize r d x) s).lanes = s.lanes ∧
    (ds.foldl (fun s d => s.finalize r d x) s).frt = s.frt ∧
    (ds.foldl (fun s d => s.finalize r d x) s).slm.record = s.slm.record ∧
    (ds.foldl (fun s d => s.finalize r d x) s).slm.allocCounter = s.slm.allocCounter ∧
    (ds.foldl (fun s d => s.finalize r d x) s).slm.store = s.slm.store ∧
    (ds.foldl (fun s d => s.finalize r d x) s).layout = s.layout ∧
    (ds.foldl (fun s d => s.finalize r d x) s).dle.routes = s.dle.routes ∧
    (ds.foldl (fun s d => s.finalize r d x) s).dle.paused = s.dle.paused ∧
    (ds.foldl (fun s d => s.finalize r d x) s).dle.rereads = s.dle.rereads ∧
    (ds.foldl (fun s d => s.finalize r d x) s).ports = s.ports ∧ (ds.foldl (fun s d => s.finalize r d x) s).rnc = s.rnc ∧
    (ds.foldl (fun s d => s.finalize r d x) s).ntu = s.ntu := by
  have h := foldl_keeps (fun s : State => (s.pending, s.now, s.pwrOk, s.ptk, s.tru, s.lanes, s.frt, s.slm.record, s.slm.allocCounter, s.slm.store, s.layout, s.dle.routes, s.dle.paused, s.dle.rereads, s.ports, s.rnc, s.ntu))
    (fun s d => s.finalize r d x) (by intro s x; simp) ds s
  simpa using h

@[simp] theorem State.skipPending_frame (s : State) (p : Port) :
    (s.skipPending p).pending = s.pending ∧ (s.skipPending p).now = s.now ∧ (s.skipPending p).pwrOk = s.pwrOk ∧
    (s.skipPending p).ptk = s.ptk ∧ (s.skipPending p).tru = s.tru ∧ (s.skipPending p).lanes = s.lanes ∧
    (s.skipPending p).frt = s.frt ∧ (s.skipPending p).slm.record = s.slm.record ∧
    (s.skipPending p).slm.allocCounter = s.slm.allocCounter ∧ (s.skipPending p).slm.store = s.slm.store ∧
    (s.skipPending p).layout = s.layout ∧ (s.skipPending p).dle.routes = s.dle.routes ∧
    (s.skipPending p).dle.paused = s.dle.paused ∧ (s.skipPending p).dle.rereads = s.dle.rereads ∧
    (s.skipPending p).ports = s.ports ∧ (s.skipPending p).rnc = s.rnc ∧ (s.skipPending p).ntu = s.ntu := by
  have h := fun u : State => foldl_keeps (fun s : State => (s.pending, s.now, s.pwrOk, s.ptk, s.tru, s.lanes, s.frt, s.slm.record, s.slm.allocCounter, s.slm.store, s.layout, s.dle.routes, s.dle.paused, s.dle.rereads, s.ports, s.rnc, s.ntu))
    (fun s r => ((s.dle.records.get r).filter fun d => d.state = .pending).foldl (fun s d => s.finalize r d .skipped) s) (by intro s x; simp) (s.routesOf p) u
  simp only [Prod.mk.injEq] at h
  simp [State.skipPending, h]

@[simp] theorem State.stopRun_frame (s : State) :
    s.stopRun.pending = s.pending ∧ s.stopRun.now = s.now ∧ s.stopRun.pwrOk = s.pwrOk ∧ s.stopRun.ptk = s.ptk ∧
    s.stopRun.tru = s.tru ∧ s.stopRun.lanes = s.lanes ∧ s.stopRun.slm.record = s.slm.record ∧
    s.stopRun.slm.allocCounter = s.slm.allocCounter ∧ s.stopRun.slm.store = s.slm.store ∧ s.stopRun.layout = s.layout ∧
    s.stopRun.dle.routes = s.dle.routes ∧ s.stopRun.dle.paused = s.dle.paused ∧ s.stopRun.dle.rereads = s.dle.rereads ∧
    s.stopRun.ntu.enable = s.ntu.enable ∧ s.stopRun.ntu.counters = s.ntu.counters := by
  unfold State.stopRun; simp only [List.foldl_cons, List.foldl_nil]; (repeat' split) <;> simp

@[simp] theorem State.endRun_frame (s : State) :
    s.endRun.pending = s.pending ∧ s.endRun.now = s.now ∧ s.endRun.pwrOk = s.pwrOk ∧ s.endRun.frt = s.frt ∧
    s.endRun.slm = s.slm ∧ s.endRun.layout = s.layout ∧ s.endRun.dle = s.dle ∧ s.endRun.ntu.enable = s.ntu.enable ∧
    s.endRun.ntu.counters = s.ntu.counters := by
  simp [State.endRun]

@[simp] theorem State.applyScale_frame (s : State) (r : ScaleRecord) :
    (s.applyScale r).pending = s.pending ∧ (s.applyScale r).now = s.now ∧ (s.applyScale r).pwrOk = s.pwrOk ∧
    (s.applyScale r).tru = s.tru ∧ (s.applyScale r).lanes = s.lanes ∧ (s.applyScale r).frt = s.frt ∧
    (s.applyScale r).slm = s.slm ∧ (s.applyScale r).layout = s.layout ∧ (s.applyScale r).dle = s.dle ∧
    (s.applyScale r).rnc = s.rnc ∧ (s.applyScale r).ntu.enable = s.ntu.enable ∧ (s.applyScale r).ntu.counters = s.ntu.counters := by
  unfold State.applyScale; dsimp only; (repeat' split) <;> simp

@[simp] theorem State.takeBackOpen_frame (s : State) (r : Fin 8) :
    (s.takeBackOpen r).pending = s.pending ∧ (s.takeBackOpen r).now = s.now ∧ (s.takeBackOpen r).pwrOk = s.pwrOk ∧
    (s.takeBackOpen r).ptk = s.ptk ∧ (s.takeBackOpen r).tru = s.tru ∧ (s.takeBackOpen r).lanes = s.lanes ∧
    (s.takeBackOpen r).frt = s.frt ∧ (s.takeBackOpen r).slm = s.slm ∧ (s.takeBackOpen r).layout = s.layout ∧
    (s.takeBackOpen r).dle.routes = s.dle.routes ∧ (s.takeBackOpen r).dle.paused = s.dle.paused ∧
    (s.takeBackOpen r).dle.rereads = s.dle.rereads ∧ (s.takeBackOpen r).ports = s.ports ∧ (s.takeBackOpen r).rnc = s.rnc ∧
    (s.takeBackOpen r).ntu = s.ntu := by
  simp [State.takeBackOpen]

@[simp] theorem State.takeBackOpens_frame (s : State) (rs : List (Fin 8)) :
    (rs.foldl State.takeBackOpen s).pending = s.pending ∧ (rs.foldl State.takeBackOpen s).now = s.now ∧
    (rs.foldl State.takeBackOpen s).pwrOk = s.pwrOk ∧ (rs.foldl State.takeBackOpen s).ptk = s.ptk ∧
    (rs.foldl State.takeBackOpen s).tru = s.tru ∧ (rs.foldl State.takeBackOpen s).lanes = s.lanes ∧
    (rs.foldl State.takeBackOpen s).frt = s.frt ∧ (rs.foldl State.takeBackOpen s).slm = s.slm ∧
    (rs.foldl State.takeBackOpen s).layout = s.layout ∧ (rs.foldl State.takeBackOpen s).dle.routes = s.dle.routes ∧
    (rs.foldl State.takeBackOpen s).dle.paused = s.dle.paused ∧ (rs.foldl State.takeBackOpen s).dle.rereads = s.dle.rereads ∧
    (rs.foldl State.takeBackOpen s).ports = s.ports ∧ (rs.foldl State.takeBackOpen s).rnc = s.rnc ∧
    (rs.foldl State.takeBackOpen s).ntu = s.ntu := by
  have h := foldl_keeps (fun s : State => (s.pending, s.now, s.pwrOk, s.ptk, s.tru, s.lanes, s.frt, s.slm, s.layout, s.dle.routes, s.dle.paused, s.dle.rereads, s.ports, s.rnc, s.ntu))
    State.takeBackOpen (by intro s x; simp) rs s
  simpa using h

@[simp] theorem State.flagRevoke_frame (s : State) (r : Fin 8) (a : Nat) :
    (s.flagRevoke r a).pending = s.pending ∧ (s.flagRevoke r a).now = s.now ∧ (s.flagRevoke r a).pwrOk = s.pwrOk ∧
    (s.flagRevoke r a).ptk = s.ptk ∧ (s.flagRevoke r a).tru = s.tru ∧ (s.flagRevoke r a).lanes = s.lanes ∧
    (s.flagRevoke r a).frt = s.frt ∧ (s.flagRevoke r a).slm = s.slm ∧ (s.flagRevoke r a).layout = s.layout ∧
    (s.flagRevoke r a).dle.routes = s.dle.routes ∧ (s.flagRevoke r a).dle.paused = s.dle.paused ∧
    (s.flagRevoke r a).dle.rereads = s.dle.rereads ∧ (s.flagRevoke r a).ports = s.ports ∧ (s.flagRevoke r a).rnc = s.rnc ∧
    (s.flagRevoke r a).ntu = s.ntu := by
  simp [State.flagRevoke]

@[simp] theorem State.revokeOn_frame (s : State) (a : Nat) (r : Fin 8) :
    (s.revokeOn a r).pending = s.pending ∧ (s.revokeOn a r).now = s.now ∧ (s.revokeOn a r).pwrOk = s.pwrOk ∧
    (s.revokeOn a r).ptk = s.ptk ∧ (s.revokeOn a r).tru = s.tru ∧ (s.revokeOn a r).lanes = s.lanes ∧
    (s.revokeOn a r).frt = s.frt ∧ (s.revokeOn a r).slm.record = s.slm.record ∧
    (s.revokeOn a r).slm.allocCounter = s.slm.allocCounter ∧ (s.revokeOn a r).slm.store = s.slm.store ∧
    (s.revokeOn a r).layout = s.layout ∧ (s.revokeOn a r).dle.routes = s.dle.routes ∧
    (s.revokeOn a r).dle.paused = s.dle.paused ∧ (s.revokeOn a r).dle.rereads = s.dle.rereads ∧
    (s.revokeOn a r).ports = s.ports ∧ (s.revokeOn a r).rnc = s.rnc ∧ (s.revokeOn a r).ntu = s.ntu := by
  unfold State.revokeOn; dsimp only; (repeat' split) <;> simp

@[simp] theorem State.revokeAll_frame (s : State) (a : Nat) (rs : List (Fin 8)) :
    (rs.foldl (fun t r => t.revokeOn a r) s).pending = s.pending ∧ (rs.foldl (fun t r => t.revokeOn a r) s).now = s.now ∧
    (rs.foldl (fun t r => t.revokeOn a r) s).pwrOk = s.pwrOk ∧ (rs.foldl (fun t r => t.revokeOn a r) s).ptk = s.ptk ∧
    (rs.foldl (fun t r => t.revokeOn a r) s).tru = s.tru ∧ (rs.foldl (fun t r => t.revokeOn a r) s).lanes = s.lanes ∧
    (rs.foldl (fun t r => t.revokeOn a r) s).frt = s.frt ∧
    (rs.foldl (fun t r => t.revokeOn a r) s).slm.record = s.slm.record ∧
    (rs.foldl (fun t r => t.revokeOn a r) s).slm.allocCounter = s.slm.allocCounter ∧
    (rs.foldl (fun t r => t.revokeOn a r) s).slm.store = s.slm.store ∧
    (rs.foldl (fun t r => t.revokeOn a r) s).layout = s.layout ∧
    (rs.foldl (fun t r => t.revokeOn a r) s).dle.routes = s.dle.routes ∧
    (rs.foldl (fun t r => t.revokeOn a r) s).dle.paused = s.dle.paused ∧
    (rs.foldl (fun t r => t.revokeOn a r) s).dle.rereads = s.dle.rereads ∧
    (rs.foldl (fun t r => t.revokeOn a r) s).ports = s.ports ∧ (rs.foldl (fun t r => t.revokeOn a r) s).rnc = s.rnc ∧
    (rs.foldl (fun t r => t.revokeOn a r) s).ntu = s.ntu := by
  have h := foldl_keeps (fun s : State => (s.pending, s.now, s.pwrOk, s.ptk, s.tru, s.lanes, s.frt, s.slm.record, s.slm.allocCounter, s.slm.store, s.layout, s.dle.routes, s.dle.paused, s.dle.rereads, s.ports, s.rnc, s.ntu))
    (fun t r => State.revokeOn t a r) (by intro s x; simp) rs s
  simpa using h

/-! ## PortEvents -/

@[simp] theorem State.abortRoute_frame (s : State) (p : Port) (r : Fin 8) :
    (s.abortRoute p r).pending = s.pending ∧ (s.abortRoute p r).now = s.now ∧ (s.abortRoute p r).pwrOk = s.pwrOk ∧
    (s.abortRoute p r).ptk = s.ptk ∧ (s.abortRoute p r).tru = s.tru ∧ (s.abortRoute p r).lanes = s.lanes ∧
    (s.abortRoute p r).frt = s.frt ∧ (s.abortRoute p r).slm.record = s.slm.record ∧
    (s.abortRoute p r).slm.allocCounter = s.slm.allocCounter ∧ (s.abortRoute p r).slm.store = s.slm.store ∧
    (s.abortRoute p r).layout = s.layout ∧ (s.abortRoute p r).dle.routes = s.dle.routes ∧
    (s.abortRoute p r).dle.paused = s.dle.paused ∧ (s.abortRoute p r).dle.rereads = s.dle.rereads ∧
    (s.abortRoute p r).ports = s.ports ∧ (s.abortRoute p r).rnc = s.rnc ∧ (s.abortRoute p r).ntu.pending = s.ntu.pending ∧
    (s.abortRoute p r).ntu.enable = s.ntu.enable := by
  have h := fun u : State => foldl_keeps (fun s : State => (s.pending, s.now, s.pwrOk, s.ptk, s.tru, s.lanes, s.frt, s.slm.record, s.slm.allocCounter, s.slm.store, s.layout, s.dle.routes, s.dle.paused, s.dle.rereads, s.ports, s.rnc, s.ntu.pending, s.ntu.enable))
    (fun s d => (s.countPort p fun c => { c with abortedFrames := countUp 1 c.abortedFrames }).finalize r d .aborted) (by intro s x; simp) ((s.dle.records.get r).filter fun d => d.state = .opened) u
  simp only [Prod.mk.injEq] at h
  simp [State.abortRoute, h]

@[simp] theorem State.dropRereads_frame (s : State) (p : Port) :
    (s.dropRereads p).pending = s.pending ∧ (s.dropRereads p).now = s.now ∧ (s.dropRereads p).pwrOk = s.pwrOk ∧
    (s.dropRereads p).ptk = s.ptk ∧ (s.dropRereads p).tru = s.tru ∧ (s.dropRereads p).lanes = s.lanes ∧
    (s.dropRereads p).frt = s.frt ∧ (s.dropRereads p).slm.record = s.slm.record ∧
    (s.dropRereads p).slm.allocCounter = s.slm.allocCounter ∧ (s.dropRereads p).slm.store = s.slm.store ∧
    (s.dropRereads p).layout = s.layout ∧ (s.dropRereads p).dle.routes = s.dle.routes ∧
    (s.dropRereads p).dle.paused = s.dle.paused ∧ (s.dropRereads p).ports = s.ports ∧ (s.dropRereads p).rnc = s.rnc ∧
    (s.dropRereads p).ntu = s.ntu := by
  have h := fun u : State => foldl_keeps (fun s : State => (s.pending, s.now, s.pwrOk, s.ptk, s.tru, s.lanes, s.frt, s.slm.record, s.slm.allocCounter, s.slm.store, s.layout, s.dle.routes, s.dle.paused, s.ports, s.rnc, s.ntu))
    (fun s e => s.rereadEnded e.slot) (by intro s x; simp) (s.dle.rereads.get p) u
  simp only [Prod.mk.injEq] at h
  simp [State.dropRereads, h]

/-- Dropping a port's rereads empties its queue and leaves the other port's (R148, R149). -/
@[simp] theorem State.dropRereads_rereads (s : State) (p : Port) : (s.dropRereads p).dle.rereads = s.dle.rereads.set p [] := by
  have h (es : List Reread) (u : State) : (es.foldl (fun s e => s.rereadEnded e.slot) u).dle.rereads = u.dle.rereads := by
    induction es generalizing u with
    | nil => rfl
    | cons e es ih => simp [ih]
  simp [State.dropRereads, h, State.setRereads]

@[simp] theorem State.portLost_frame (s : State) (p : Port) :
    (s.portLost p).pending = s.pending ∧ (s.portLost p).now = s.now ∧ (s.portLost p).pwrOk = s.pwrOk ∧
    (s.portLost p).ptk = s.ptk ∧ (s.portLost p).tru = s.tru ∧ (s.portLost p).lanes = s.lanes ∧ (s.portLost p).frt = s.frt ∧
    (s.portLost p).slm.record = s.slm.record ∧ (s.portLost p).slm.allocCounter = s.slm.allocCounter ∧
    (s.portLost p).slm.store = s.slm.store ∧ (s.portLost p).layout = s.layout ∧ (s.portLost p).dle.routes = s.dle.routes ∧
    (s.portLost p).dle.paused = s.dle.paused ∧ (s.portLost p).rnc = s.rnc ∧ (s.portLost p).ntu.enable = s.ntu.enable := by
  have h := fun t : State => fun rs : List (Fin 8) => foldl_keeps (fun s : State => (s.pending, s.now, s.pwrOk, s.ptk, s.tru, s.lanes, s.frt, s.slm.record, s.slm.allocCounter, s.slm.store, s.layout, s.dle.routes, s.dle.paused, s.rnc, s.ntu.enable))
    (fun s r => s.abortRoute p r) (by intro s x; simp) rs t
  simp only [Prod.mk.injEq] at h
  unfold State.portLost
  dsimp only
  split <;> simp [h]

@[simp] theorem State.linkError_frame (s : State) (p : Port) :
    (s.linkError p).pending = s.pending ∧ (s.linkError p).now = s.now ∧ (s.linkError p).pwrOk = s.pwrOk ∧
    (s.linkError p).ptk = s.ptk ∧ (s.linkError p).tru = s.tru ∧ (s.linkError p).lanes = s.lanes ∧
    (s.linkError p).frt = s.frt ∧ (s.linkError p).slm = s.slm ∧ (s.linkError p).layout = s.layout ∧
    (s.linkError p).dle = s.dle ∧ (s.linkError p).rnc = s.rnc ∧ (s.linkError p).ntu.enable = s.ntu.enable ∧
    (s.linkError p).ntu.counters = s.ntu.counters := by
  simp [State.linkError]

@[simp] theorem State.receiveHost_frame (s : State) (p : Port) (b : List Byte) :
    (s.receiveHost p b).pending = s.pending ∧ (s.receiveHost p b).now = s.now ∧ (s.receiveHost p b).pwrOk = s.pwrOk ∧
    (s.receiveHost p b).ptk = s.ptk ∧ (s.receiveHost p b).tru = s.tru ∧ (s.receiveHost p b).lanes = s.lanes ∧
    (s.receiveHost p b).frt = s.frt ∧ (s.receiveHost p b).slm = s.slm ∧ (s.receiveHost p b).layout = s.layout ∧
    (s.receiveHost p b).dle = s.dle ∧ (s.receiveHost p b).rnc = s.rnc ∧ (s.receiveHost p b).ntu.enable = s.ntu.enable := by
  unfold State.receiveHost; dsimp only; (repeat' split) <;> simp

@[simp] theorem State.endTile_frame (s : State) (p : Port) :
    (s.endTile p).pending = s.pending ∧ (s.endTile p).now = s.now ∧ (s.endTile p).pwrOk = s.pwrOk ∧
    (s.endTile p).ptk = s.ptk ∧ (s.endTile p).tru = s.tru ∧ (s.endTile p).lanes = s.lanes ∧
    (s.endTile p).frt = s.frt ∧ (s.endTile p).slm = s.slm ∧ (s.endTile p).layout = s.layout ∧
    (s.endTile p).dle = s.dle ∧ (s.endTile p).rnc = s.rnc ∧ (s.endTile p).ntu = s.ntu := by
  simp [State.endTile]

@[simp] theorem State.segmentSent_frame (s : State) (p : Port) (r : Fin 8) (a n : Nat) (b : Bool) :
    (s.segmentSent p r a n b).pending = s.pending ∧ (s.segmentSent p r a n b).now = s.now ∧
    (s.segmentSent p r a n b).pwrOk = s.pwrOk ∧ (s.segmentSent p r a n b).ptk = s.ptk ∧
    (s.segmentSent p r a n b).tru = s.tru ∧ (s.segmentSent p r a n b).lanes = s.lanes ∧
    (s.segmentSent p r a n b).frt = s.frt ∧ (s.segmentSent p r a n b).slm = s.slm ∧
    (s.segmentSent p r a n b).layout = s.layout ∧ (s.segmentSent p r a n b).dle.routes = s.dle.routes ∧
    (s.segmentSent p r a n b).dle.paused = s.dle.paused ∧ (s.segmentSent p r a n b).dle.rereads = s.dle.rereads ∧
    (s.segmentSent p r a n b).rnc = s.rnc ∧ (s.segmentSent p r a n b).ntu = s.ntu := by
  unfold State.segmentSent; dsimp only; split <;> simp

@[simp] theorem State.rereadSent_frame (s : State) (p : Port) (a n : Nat) (b : Bool) :
    (s.rereadSent p a n b).pending = s.pending ∧ (s.rereadSent p a n b).now = s.now ∧
    (s.rereadSent p a n b).pwrOk = s.pwrOk ∧ (s.rereadSent p a n b).ptk = s.ptk ∧ (s.rereadSent p a n b).tru = s.tru ∧
    (s.rereadSent p a n b).lanes = s.lanes ∧ (s.rereadSent p a n b).frt = s.frt ∧
    (s.rereadSent p a n b).slm.record = s.slm.record ∧ (s.rereadSent p a n b).slm.allocCounter = s.slm.allocCounter ∧
    (s.rereadSent p a n b).slm.store = s.slm.store ∧ (s.rereadSent p a n b).layout = s.layout ∧
    (s.rereadSent p a n b).dle.routes = s.dle.routes ∧ (s.rereadSent p a n b).dle.paused = s.dle.paused ∧
    (s.rereadSent p a n b).rnc = s.rnc ∧ (s.rereadSent p a n b).ntu = s.ntu := by
  unfold State.rereadSent; (repeat' split) <;> simp

end Sys2Proof.Machine
end

