-- ==== Sys2Proof/Laws/Command.lean ====
section
/-! SUPPORT. What taking a command packet can do, said once (R157, R168 to R170): the claims about the commands cite these and never
unfold `command`, `answer` or `takeable`. -/

namespace Sys2Proof.Machine

/-- When a packet may be taken, `takeable` answers it with the rest. -/
theorem State.takeable_of_mayTake {s : State} {p : Port} {c : InPacket} {rest : List InPacket} (h : s.mayTake p c rest) :
    s.takeable p = some (c, rest) := by
  obtain ⟨-, hin, hrep, hhand, hreset⟩ := h
  have h1 : ¬ (Config.replyLimit ≤ (s.ports.get p).replies.length ∨ (s.rnc.inHand.get p).isSome = true
      ∨ (p = .a ∧ s.rnc.resetPending = true)) := by
    rintro (h | h | h)
    · omega
    · simp [hhand] at h
    · exact hreset h
  unfold State.takeable
  simp only [h1, if_false, hin]

/-- What may be taken, read back from `takeable`. -/
theorem State.takeable_some {s : State} {p : Port} {c : InPacket} {rest : List InPacket} (h : s.takeable p = some (c, rest)) :
    (s.ports.get p).inbound = c :: rest ∧ (s.ports.get p).replies.length < Config.replyLimit ∧ s.rnc.inHand.get p = none
      ∧ ¬ (p = .a ∧ s.rnc.resetPending = true) := by
  unfold State.takeable at h
  dsimp only at h
  split at h
  · cases h
  · rename_i hn
    push Not at hn
    split at h
    · cases h
    · rename_i c' rest' hin
      simp only [Option.some.injEq, Prod.mk.injEq] at h
      obtain ⟨rfl, rfl⟩ := h
      refine ⟨hin, hn.1, ?_, fun hx => hn.2.2 hx.1 hx.2⟩
      have := hn.2.1
      cases e : s.rnc.inHand.get p <;> simp_all

/-- A command whose packet passes checks 1 to 5 and which its owner accepts. -/
theorem State.command_accept {s t : State} {p : Port} {code : Nat} {owner : InPacket → State → Answer} {c : InPacket}
    {rest : List InPacket} {record : List Byte} (h : s.mayTake p c rest) (hk : c.kind = code)
    (hr : (s.took p rest).firstRefusal p c = none) (ho : owner c (s.took p rest) = .accept t record) :
    s.command p code owner = t.answered p c record := by
  unfold State.command
  rw [State.takeable_of_mayTake h]
  simp only [hk, if_true]
  unfold State.answer
  unfold State.took at hr ho
  rw [hr]
  simp only [ho]
  rfl

/-- A command whose packet passes checks 1 to 5 and which its owner refuses. -/
theorem State.command_refuse {s : State} {p : Port} {code : Nat} {owner : InPacket → State → Answer} {c : InPacket}
    {rest : List InPacket} {result : Result} (h : s.mayTake p c rest) (hk : c.kind = code)
    (hr : (s.took p rest).firstRefusal p c = none) (ho : owner c (s.took p rest) = .refuse result) :
    s.command p code owner = (s.took p rest).refuses p c result := by
  unfold State.command
  rw [State.takeable_of_mayTake h]
  simp only [hk, if_true]
  unfold State.answer
  unfold State.took at hr ho
  rw [hr]
  simp only [ho]
  rfl

/-- A command that its owner holds. -/
theorem State.command_hold {s t : State} {p : Port} {code : Nat} {owner : InPacket → State → Answer} {c : InPacket}
    {rest : List InPacket} (h : s.mayTake p c rest) (hk : c.kind = code)
    (hr : (s.took p rest).firstRefusal p c = none) (ho : owner c (s.took p rest) = .hold t) :
    s.command p code owner = t.holds p c := by
  unfold State.command
  rw [State.takeable_of_mayTake h]
  simp only [hk, if_true]
  unfold State.answer
  unfold State.took at hr ho
  rw [hr]
  simp only [ho]
  rfl

/-- A command whose packet fails one of checks 1 to 5. -/
theorem State.command_refused {s : State} {p : Port} {code : Nat} {owner : InPacket → State → Answer} {c : InPacket}
    {rest : List InPacket} {result : Result} (h : s.mayTake p c rest) (hk : c.kind = code)
    (hr : (s.took p rest).firstRefusal p c = some result) :
    s.command p code owner = (s.took p rest).refuses p c result := by
  unfold State.command
  rw [State.takeable_of_mayTake h]
  simp only [hk, if_true]
  unfold State.answer
  unfold State.took at hr
  rw [hr]
  rfl

/-- Everything that taking a command packet can do: nothing; a refusal; the owner's effect with its reply; or a command held. -/
theorem State.command_cases (s : State) (p : Port) (code : Nat) (owner : InPacket → State → Answer) :
    s.command p code owner = s ∨ ∃ c rest, s.takeable p = some (c, rest) ∧ c.kind = code ∧
      ((∃ result, s.command p code owner = (s.took p rest).refuses p c result)
        ∨ ((s.took p rest).firstRefusal p c = none
            ∧ ((∃ t record, owner c (s.took p rest) = .accept t record ∧ s.command p code owner = t.answered p c record)
              ∨ ∃ t, owner c (s.took p rest) = .hold t ∧ s.command p code owner = t.holds p c))) := by
  by_cases hp : ∃ c rest, s.takeable p = some (c, rest) ∧ c.kind = code
  · obtain ⟨c, rest, ht, hk⟩ := hp
    refine .inr ⟨c, rest, ht, hk, ?_⟩
    have hcmd : s.command p code owner = ((s.took p rest).answer p c owner).settle false := by
      unfold State.command; rw [ht]; simp only [hk, if_true]; rfl
    rw [hcmd]
    unfold State.answer
    split
    · exact .inl ⟨_, rfl⟩
    · rename_i hr
      split <;> rename_i ho
      · exact .inl ⟨_, rfl⟩
      · exact .inr ⟨hr, .inl ⟨_, _, ho, rfl⟩⟩
      · exact .inr ⟨hr, .inr ⟨_, ho, rfl⟩⟩
  · left
    unfold State.command
    split
    · rfl
    · rename_i c rest ht
      split
      · rename_i hk; exact absurd ⟨c, rest, ht, hk⟩ hp
      · rfl

@[simp] theorem State.took_frame (s : State) (p : Port) (rest : List InPacket) :
    (s.took p rest).pending = s.pending ∧ (s.took p rest).now = s.now ∧ (s.took p rest).pwrOk = s.pwrOk ∧
    (s.took p rest).ptk = s.ptk ∧ (s.took p rest).tru = s.tru ∧ (s.took p rest).lanes = s.lanes ∧
    (s.took p rest).frt = s.frt ∧ (s.took p rest).slm = s.slm ∧ (s.took p rest).layout = s.layout ∧
    (s.took p rest).dle = s.dle ∧ (s.took p rest).rnc = s.rnc ∧ (s.took p rest).ntu = s.ntu := by
  simp [State.took, State.setPort]

/-- Taking the packet does not change how it is judged. -/
theorem State.took_firstRefusal (s : State) (p q : Port) (rest : List InPacket) (c : InPacket) :
    (s.took p rest).firstRefusal q c = s.firstRefusal q c := by
  simp [State.firstRefusal, State.accepts, State.slotsIn]

/-- The catalogue names each code once. -/
theorem commandRow_of_mem {row : CommandRow} (h : row ∈ catalogue) : commandRow row.code = some row := by
  have key : ∀ r ∈ catalogue, commandRow r.code = some r := by decide
  exact key row h

/-- A kind that is no command code has no row. -/
theorem commandRow_none {k : Nat} (h : k ∉ commandCodes) : commandRow k = none := by
  unfold commandRow
  refine List.find?_eq_none.2 fun row hrow hk => h ?_
  have key : ∀ r ∈ catalogue, r.code ∈ commandCodes := by decide
  have e : row.code = k := by simpa using hk
  exact e ▸ key row hrow

/-- A packet that passes checks 1 to 3 as a row's command fails no check when the port and the state admit it. -/
theorem State.firstRefusal_none {s : State} {p : Port} {c : InPacket} {row : CommandRow} (hrow : row ∈ catalogue)
    (hp : c.passes row.code row.length) (hb : p = .b → row.fromB = true) (ha : s.accepts row = true) :
    s.firstRefusal p c = none := by
  obtain ⟨hc, hk, hl⟩ := hp
  unfold State.firstRefusal
  have hb' : ¬ (p = .b ∧ ¬ row.fromB = true) := fun h => h.2 (hb h.1)
  simp [hc, hk, commandRow_of_mem hrow, hl, ha]
  exact fun h => hb h

/-- A meaning that takes a packet its owner accepts. -/
theorem State.whenPowered_accept {s t : State} {p : Port} {code length : Nat} {owner : InPacket → State → Answer} {c : InPacket}
    {rest : List InPacket} {record : List Byte} (h : s.mayTake p c rest) (hp : c.passes code length)
    (hr : s.firstRefusal p c = none) (ho : owner c (s.took p rest) = .accept t record) :
    s.whenPowered (fun s => s.command p code owner) = .next (t.answered p c record) := by
  rw [State.whenPowered_high _ _ h.1, State.command_accept h hp.2.1 (by rw [State.took_firstRefusal]; exact hr) ho]

/-- A meaning that takes a packet its owner refuses. -/
theorem State.whenPowered_refuse {s : State} {p : Port} {code length : Nat} {owner : InPacket → State → Answer} {c : InPacket}
    {rest : List InPacket} {result : Result} (h : s.mayTake p c rest) (hp : c.passes code length)
    (hr : s.firstRefusal p c = none) (ho : owner c (s.took p rest) = .refuse result) :
    s.whenPowered (fun s => s.command p code owner) = .next ((s.took p rest).refuses p c result) := by
  rw [State.whenPowered_high _ _ h.1, State.command_refuse h hp.2.1 (by rw [State.took_firstRefusal]; exact hr) ho]

/-- A meaning that takes a packet its owner holds. -/
theorem State.whenPowered_hold {s t : State} {p : Port} {code length : Nat} {owner : InPacket → State → Answer} {c : InPacket}
    {rest : List InPacket} (h : s.mayTake p c rest) (hp : c.passes code length)
    (hr : s.firstRefusal p c = none) (ho : owner c (s.took p rest) = .hold t) :
    s.whenPowered (fun s => s.command p code owner) = .next (t.holds p c) := by
  rw [State.whenPowered_high _ _ h.1, State.command_hold h hp.2.1 (by rw [State.took_firstRefusal]; exact hr) ho]

end Sys2Proof.Machine
end

