-- ==== Sys2Proof/Laws/Effects.lean ====
section
/-! SUPPORT. For the shared operations whose effect the frames do not say: what they do to the notices, the open list, the slots and the
records, as one lemma each. -/

namespace Sys2Proof.Machine

/-! ## Notices (R181, R182) -/

theorem maskHas_or (m : BitVec 16) (x y : Source) : maskHas (m ||| x.bit) y = (maskHas m y || decide (y = x)) := by
  unfold maskHas Source.bit
  rw [BitVec.getLsbD_or, BitVec.getLsbD_twoPow]
  cases x <;> cases y <;> simp [Source.number]

/-- A source raised is pending. -/
theorem State.maskHas_raise (s : State) (x : Source) (fr : Option Nat) (l : Option (Fin 8)) (d : Int) :
    maskHas (s.raise x fr l d).ntu.pending x = true := by
  unfold State.raise
  split
  · assumption
  · split <;> simp [maskHas_or]

/-- A source that is pending stays pending when another is raised. -/
theorem State.maskHas_raise_mono (s : State) (x y : Source) (fr : Option Nat) (l : Option (Fin 8)) (d : Int)
    (h : maskHas s.ntu.pending y = true) : maskHas (s.raise x fr l d).ntu.pending y = true := by
  unfold State.raise
  split
  · assumption
  · split <;> simp [maskHas_or, h]

/-- Raising a source touches at most the notice queue of port A. -/
theorem State.raise_ports (s : State) (x : Source) (fr : Option Nat) (l : Option (Fin 8)) (d : Int) :
    ∃ n, (s.raise x fr l d).ports = { s.ports with a := { s.ports.a with notices := n } } := by
  unfold State.raise State.offerNotice
  split
  · exact ⟨_, rfl⟩
  · split
    · dsimp only
      split <;> exact ⟨_, rfl⟩
    · exact ⟨_, rfl⟩

/-! ## The open list (R76) -/

/-- The close test takes closed frames off the head of the open list and changes nothing else of the Frame Tracker. -/
theorem closePassing_openList (high : Int) (fs : List OpenFrame) (s : State) :
    ∃ k, (closePassing high fs s).frt = { s.frt with openList := fs.drop k } := by
  induction fs generalizing s with
  | nil => exact ⟨0, rfl⟩
  | cons f fs ih =>
    simp only [closePassing]
    split
    · exact ⟨0, rfl⟩
    · split
      · obtain ⟨k, h⟩ := ih (s.closeSlot f.slot _ _)
        exact ⟨k + 1, by rw [h]; simp⟩
      · exact ⟨0, rfl⟩

/-- The tests that follow a change of lane progress change the open list alone of the Frame Tracker. -/
theorem State.progressed_openList (s : State) : ∃ k, s.progressed.frt = { s.frt with openList := s.frt.openList.drop k } := by
  obtain ⟨k, h⟩ := closePassing_openList s.ptk.high s.frt.openList s
  exact ⟨k, by simp only [State.progressed, State.readinessTest_frame]; exact h⟩

/-! ## Slots and records -/

theorem State.freeSlot_slot (s : State) (i j : Nat) : (s.freeSlot i).slot j = if j = i then Slot.empty else s.slot j := by
  unfold State.freeSlot
  by_cases h : i < s.slm.slots.length
  · have e : ∀ k, (s.dropRecords (s.slot i).alloc).slot k = s.slot k := fun _ => rfl
    rw [State.setSlot_slot _ _ _ _ (by exact h)]
    simp [e]
  · have hi : ∀ t : State, t.slm.slots.length = s.slm.slots.length → t.slot i = Slot.empty := fun t ht => by
      unfold State.slot; rw [List.getD_eq_getElem?_getD, List.getElem?_eq_none (by omega)]; rfl
    by_cases hj : j = i
    · subst hj; simp only [if_true]; exact hi _ (by simp [State.dropRecords])
    · simp only [hj, if_false]
      unfold State.slot State.setSlot
      simp only [List.getD_eq_getElem?_getD, List.getElem?_modify]
      have : i ≠ j := fun e => hj e.symm
      simp [State.dropRecords, this]

theorem State.dropRecords_get (s : State) (a : Nat) (r : Fin 8) :
    (s.dropRecords a).dle.records.get r = (s.dle.records.get r).filter fun d => d.alloc ≠ a := by
  simp [State.dropRecords]

theorem State.freeSlot_records (s : State) (i : Nat) (r : Fin 8) :
    (s.freeSlot i).dle.records.get r = (s.dle.records.get r).filter fun d => d.alloc ≠ (s.slot i).alloc := by
  simp [State.freeSlot, State.dropRecords_get]

/-- The freeing test, said once (R94): a CLOSED slot with no outstanding route and no pending reread becomes HELD when it is retained
and FREE when it is not; any other slot is left alone. -/
theorem State.freeingTest_cases (s : State) (i : Nat) :
    (¬ ((s.slot i).state = .closed ∧ (s.slot i).outstanding = [] ∧ (s.slot i).pendingRereads = 0) ∧ s.freeingTest i = s)
      ∨ ((s.slot i).state = .closed ∧ (s.slot i).outstanding = [] ∧ (s.slot i).pendingRereads = 0
          ∧ ((s.slot i).retain = true ∧ s.freeingTest i = (s.setSlot i fun y => { y with state := .held, retain := false })
            ∨ (s.slot i).retain = false ∧ s.freeingTest i = s.freeSlot i)) := by
  unfold State.freeingTest
  dsimp only
  by_cases h : (s.slot i).state = .closed ∧ (s.slot i).outstanding = [] ∧ (s.slot i).pendingRereads = 0
  · simp only [h, and_self, if_true]
    cases hr : (s.slot i).retain <;> simp
  · simp [h]

/-- A resolution, said once (R100): discarded, or the one mark of its row in the slot that keeps the position. -/
theorem State.resolve_cases (s : State) (l : Fin 8) (k : Fin 4) (p : Int) (res : Resolution) :
    ((s.keeper p = none ∨ ∃ i, s.keeper p = some i ∧ (s.slot i).markOf l k (p - (s.slot i).start).toNat ≠ .unresolved)
        ∧ s.resolve l k p res = s)
      ∨ ∃ i, s.keeper p = some i ∧ (s.slot i).markOf l k (p - (s.slot i).start).toNat = .unresolved
          ∧ (s.resolve l k p res).slm
              = (s.setSlot i fun _ => (s.slot i).resolved l k (p - (s.slot i).start).toNat res).slm := by
  unfold State.resolve
  cases hk : s.keeper p with
  | none => exact .inl ⟨.inl rfl, rfl⟩
  | some i =>
    dsimp only
    split
    · rename_i h
      refine .inr ⟨i, rfl, h, ?_⟩
      split <;> simp
    · rename_i h; exact .inl ⟨.inr ⟨i, rfl, h⟩, rfl⟩

/-- A resolution sets the mark of its row and no other. -/
theorem Slot.resolved_markOf (x : Slot) (l m : Fin 8) (k j : Fin 4) (row n : Nat) (res : Resolution) :
    (x.resolved l k row res).markOf m j n =
      if l = m ∧ k = j ∧ row = n then (match res with | .written => Mark.written | .filled _ => Mark.filled) else x.markOf m j n := by
  by_cases h : l = m ∧ k = j ∧ row = n <;> cases res <;> simp [Slot.resolved, Slot.markOf, h]

/-! ## Rest and FRAME_OPENs -/

/-- The one thing that judging R163 can do is begin a REST, with the idle timer at or beyond the rest delay. -/
theorem State.judgeRest_cases (s : State) (p : Port) :
    s.judgeRest p = s
      ∨ (∃ t, (s.ports.get p).idleTimer = some t ∧ (s.ports.get p).record.restDelay * Config.unitsPerUs ≤ s.elapsed t)
        ∧ s.restReady p = true ∧ s.judgeRest p = s.beginRest p := by
  unfold State.judgeRest
  split
  · exact .inl rfl
  · next t h =>
    split
    · next hc => exact .inr ⟨⟨t, h, hc.1⟩, hc.2, rfl⟩
    · exact .inl rfl

/-- The rest conditions but the idle timer's own, as R163 lists them; and port A waits for a command reset that is due. -/
theorem State.restReady_iff (s : State) (p : Port) :
    s.restReady p = true ↔
      (s.ports.get p).record.restEnable = true ∧ (s.ports.get p).link = .up ∧ (s.ports.get p).tx = none ∧ (s.ports.get p).tile = none
        ∧ s.workPresent p = false ∧ s.leadPresent p (s.routesOf p) = false ∧ (p = .a → s.rnc.resetDue = false) := by
  simp [State.restReady, State.mayChoose]; tauto

/-- Lane progress has changed when that of some enabled lane differs (R59, R60). -/
theorem State.progressMoved_iff (s t : State) :
    s.progressMoved t = true ↔ ∃ l, (t.lanes.get l).record.enable = true ∧ t.progress t.ptk.high l ≠ s.progress s.ptk.high l := by
  simp [State.progressMoved, State.enabledLanes, (by decide : ∀ l : Fin 8, l ∈ indices)]

/-- The one thing that forming FRAME_OPENs on a route can do is form that of its current frame, once (R130). -/
theorem State.formOpen_cases (s : State) (r : Fin 8) :
    s.formOpen r = s
      ∨ ∃ d plan, s.current r = some d ∧ d.state = .pending ∧ d.opening = none ∧ s.dle.paused.getLsbD r.val = false
          ∧ s.openPlan r d = some plan
          ∧ s.formOpen r = s.setRecord r d.alloc fun y =>
              { y with plan := some plan, opening := some (frameOpenPacket r (s.dle.routes.get r).early (s.slot d.slot) plan) } := by
  unfold State.formOpen
  split
  · exact .inl rfl
  · next d hd =>
    split
    · next hc =>
      split
      · exact .inl rfl
      · next plan hp => exact .inr ⟨d, plan, hd, hc.1, hc.2.1, by simpa using hc.2.2, hp, rfl⟩
    · exact .inl rfl

/-! ## Delivery records -/

/-- A list of delivery records may only lose members or change the fields a packet fixes as it begins. -/
theorem State.setRecord_get (s : State) (r q : Fin 8) (a : Nat) (f : Delivery → Delivery) :
    (s.setRecord r a f).dle.records.get q
      = if q = r then (s.dle.records.get r).map fun d => if d.alloc = a then f d else d else s.dle.records.get q := by
  unfold State.setRecord; rw [State.setRecords_get]

theorem find_map_alloc (ds : List Delivery) (a : Nat) (f : Delivery → Delivery) (hf : ∀ d, (f d).alloc = d.alloc) :
    ((ds.map fun d => if d.alloc = a then f d else d).find? fun d => d.alloc = a)
      = (ds.find? fun d => d.alloc = a).map f := by
  induction ds with
  | nil => rfl
  | cons d ds ih =>
    simp only [List.map_cons, List.find?_cons]
    by_cases h : d.alloc = a
    · simp [h, hf]
    · simp [h, ih]

/-- The record a change names reads back changed, when the change keeps allocation numbers. -/
theorem State.recordOf_setRecord (s : State) (r q : Fin 8) (a b : Nat) (f : Delivery → Delivery) (hf : ∀ d, (f d).alloc = d.alloc) :
    (s.setRecord r a f).recordOf q b = if q = r ∧ b = a then (s.recordOf r a).map f else s.recordOf q b := by
  unfold State.recordOf
  rw [State.setRecord_get]
  by_cases hq : q = r
  · subst hq
    by_cases hb : b = a
    · subst hb; simp [find_map_alloc _ _ _ hf]
    · simp only [hb, and_false, if_false, if_true]
      induction s.dle.records.get q with
      | nil => rfl
      | cons d ds ih =>
        simp only [List.map_cons, List.find?_cons]
        by_cases h : d.alloc = a
        · have : ¬ a = b := fun e => hb e.symm
          simp [h, hf, this, ih]
        · simp [h, ih]
  · simp [hq]

/-! ## Counters

Which groups of the counters record an operation leaves alone. -/

@[simp] theorem State.countLane_counters (s : State) (l : Fin 8) (f : LaneCounters → LaneCounters) :
    (s.countLane l f).ntu.counters.position = s.ntu.counters.position ∧ (s.countLane l f).ntu.counters.frames = s.ntu.counters.frames ∧ (s.countLane l f).ntu.counters.ports = s.ntu.counters.ports := by
  simp [State.countLane]

@[simp] theorem State.countPosition_counters (s : State) (f : PositionCounters → PositionCounters) :
    (s.countPosition f).ntu.counters.lanes = s.ntu.counters.lanes ∧ (s.countPosition f).ntu.counters.frames = s.ntu.counters.frames ∧ (s.countPosition f).ntu.counters.ports = s.ntu.counters.ports := by
  simp [State.countPosition]

@[simp] theorem State.countFrames_counters (s : State) (f : FrameCounters → FrameCounters) :
    (s.countFrames f).ntu.counters.lanes = s.ntu.counters.lanes ∧ (s.countFrames f).ntu.counters.position = s.ntu.counters.position ∧ (s.countFrames f).ntu.counters.ports = s.ntu.counters.ports := by
  simp [State.countFrames]

@[simp] theorem State.countPort_counters (s : State) (p : Port) (f : PortCounters → PortCounters) :
    (s.countPort p f).ntu.counters.lanes = s.ntu.counters.lanes ∧ (s.countPort p f).ntu.counters.position = s.ntu.counters.position ∧ (s.countPort p f).ntu.counters.frames = s.ntu.counters.frames := by
  simp [State.countPort]

@[simp] theorem State.resolve_counters (s : State) (l : Fin 8) (k : Fin 4) (p : Int) (x : Resolution) :
    (s.resolve l k p x).ntu.counters.lanes = s.ntu.counters.lanes ∧ (s.resolve l k p x).ntu.counters.position = s.ntu.counters.position ∧ (s.resolve l k p x).ntu.counters.ports = s.ntu.counters.ports := by
  unfold State.resolve; split <;> [skip; (dsimp only; split <;> [split; skip])] <;> simp

@[simp] theorem State.fillMark_counters (s : State) (l : Fin 8) (k : Fin 4) (p : Int) (c : FillCause) :
    (s.fillMark l k p c).ntu.counters.lanes = s.ntu.counters.lanes ∧ (s.fillMark l k p c).ntu.counters.position = s.ntu.counters.position ∧ (s.fillMark l k p c).ntu.counters.ports = s.ntu.counters.ports := by
  simp [State.fillMark]

@[simp] theorem State.resolveRecord_counters (s : State) (l : Fin 8) (c : FillCause) (q : TrigRecord) :
    (s.resolveRecord l c q).ntu.counters.lanes = s.ntu.counters.lanes ∧ (s.resolveRecord l c q).ntu.counters.position = s.ntu.counters.position ∧ (s.resolveRecord l c q).ntu.counters.ports = s.ntu.counters.ports := by
  unfold State.resolveRecord; split <;> simp

@[simp] theorem State.shortClose_counters (s : State) (high : Int) (c : CloseReason) (f : OpenFrame) :
    (s.shortClose high c f).ntu.counters.lanes = s.ntu.counters.lanes ∧ (s.shortClose high c f).ntu.counters.position = s.ntu.counters.position ∧ (s.shortClose high c f).ntu.counters.ports = s.ntu.counters.ports := by
  unfold State.shortClose; dsimp only; split <;> simp

@[simp] theorem State.shortCloseAll_counters (s : State) (high : Int) (c : CloseReason) :
    (s.shortCloseAll high c).ntu.counters.lanes = s.ntu.counters.lanes ∧ (s.shortCloseAll high c).ntu.counters.position = s.ntu.counters.position ∧ (s.shortCloseAll high c).ntu.counters.ports = s.ntu.counters.ports := by
  have h := foldl_keeps (fun s : State => (s.ntu.counters.lanes, s.ntu.counters.position, s.ntu.counters.ports))
    (fun s f => s.shortClose high c f) (by intro s x; simp) s.frt.openList s
  simp only [Prod.mk.injEq] at h
  simp [State.shortCloseAll, h]

@[simp] theorem State.stopCloseAll_counters (s : State) :
    s.stopCloseAll.ntu.counters.lanes = s.ntu.counters.lanes ∧ s.stopCloseAll.ntu.counters.position = s.ntu.counters.position ∧ s.stopCloseAll.ntu.counters.ports = s.ntu.counters.ports := by
  have h := foldl_keeps (fun s : State => (s.ntu.counters.lanes, s.ntu.counters.position, s.ntu.counters.ports))
    State.stopClose (by intro s x; unfold State.stopClose; (repeat' split) <;> simp) s.frt.openList s
  simp only [Prod.mk.injEq] at h
  simp [State.stopCloseAll, h]

@[simp] theorem State.rewindFrames_counters (s : State) (b : Int) :
    (s.rewindFrames b).ntu.counters.lanes = s.ntu.counters.lanes ∧ (s.rewindFrames b).ntu.counters.position = s.ntu.counters.position ∧ (s.rewindFrames b).ntu.counters.ports = s.ntu.counters.ports := by
  simp [State.rewindFrames]

@[simp] theorem State.stallClose_counters (s : State) :
    s.stallClose.ntu.counters.lanes = s.ntu.counters.lanes ∧ s.stallClose.ntu.counters.position = s.ntu.counters.position ∧ s.stallClose.ntu.counters.ports = s.ntu.counters.ports := by
  unfold State.stallClose; split <;> simp

@[simp] theorem State.boundNewest_counters (s : State) (e : Int) :
    (s.boundNewest e).ntu.counters.lanes = s.ntu.counters.lanes ∧ (s.boundNewest e).ntu.counters.position = s.ntu.counters.position ∧ (s.boundNewest e).ntu.counters.ports = s.ntu.counters.ports := by
  unfold State.boundNewest; (repeat' split) <;> (try dsimp only) <;> (try split) <;> simp

@[simp] theorem State.truncateNewest_counters (s : State) (t : Int) :
    (s.truncateNewest t).ntu.counters.lanes = s.ntu.counters.lanes ∧ (s.truncateNewest t).ntu.counters.position = s.ntu.counters.position ∧ (s.truncateNewest t).ntu.counters.ports = s.ntu.counters.ports := by
  unfold State.truncateNewest; (repeat' split) <;> (try dsimp only) <;> (try split) <;> simp

@[simp] theorem State.dropFrame_counters (s : State) (n : Nat) (c : DropReason) :
    (s.dropFrame n c).ntu.counters.lanes = s.ntu.counters.lanes ∧ (s.dropFrame n c).ntu.counters.position = s.ntu.counters.position ∧ (s.dropFrame n c).ntu.counters.ports = s.ntu.counters.ports := by
  simp [State.dropFrame]

@[simp] theorem State.evict_counters (s : State) (i : Nat) :
    (s.evict i).ntu.counters.lanes = s.ntu.counters.lanes ∧ (s.evict i).ntu.counters.position = s.ntu.counters.position ∧ (s.evict i).ntu.counters.ports = s.ntu.counters.ports := by
  simp [State.evict]

@[simp] theorem State.setUpSlot_counters (s : State) (i n : Nat) (p : Int) (k : BoundaryKind) :
    (s.setUpSlot i n p k).ntu.counters.lanes = s.ntu.counters.lanes ∧ (s.setUpSlot i n p k).ntu.counters.position = s.ntu.counters.position ∧ (s.setUpSlot i n p k).ntu.counters.ports = s.ntu.counters.ports := by
  simp

@[simp] theorem State.openFrame_counters (s : State) (n : Nat) (p : Int) (k : BoundaryKind) :
    (s.openFrame n p k).ntu.counters.lanes = s.ntu.counters.lanes ∧ (s.openFrame n p k).ntu.counters.position = s.ntu.counters.position ∧ (s.openFrame n p k).ntu.counters.ports = s.ntu.counters.ports := by
  have h : ∀ o t, s.allocate n p k = (o, t) → t.ntu.counters.lanes = s.ntu.counters.lanes
      ∧ t.ntu.counters.position = s.ntu.counters.position ∧ t.ntu.counters.ports = s.ntu.counters.ports := by
    intro o t e
    unfold State.allocate at e
    (repeat' split at e) <;> simp only [Prod.mk.injEq] at e <;> obtain ⟨rfl, rfl⟩ := e <;> simp
  unfold State.openFrame
  split
  · simp
  · split <;> rename_i e <;> have := h _ _ e <;> simp [this]

end Sys2Proof.Machine
end

