-- ==== Sys2Proof/Laws/Memory.lean ====
section
/-! SUPPORT. The line store: what a byte reads as after a write, and that a write keeps the canonical form. -/

namespace Sys2Proof.Machine

theorem Memory.read_append (m n : Memory) (a : Nat) (h : ∀ c ∈ m, c.1 ≠ a) : Memory.read (m ++ n) a = Memory.read n a := by
  induction m with
  | nil => rfl
  | cons c m ih =>
    obtain ⟨b, v⟩ := c
    have hb : b ≠ a := h (b, v) (by simp)
    simp only [List.cons_append, Memory.read, hb, if_false]
    exact ih fun c hc => h c (by simp [hc])

theorem Memory.read_append_right (m n : Memory) (a : Nat) (h : ∀ c ∈ n, c.1 ≠ a) : Memory.read (m ++ n) a = Memory.read m a := by
  induction m with
  | nil =>
    have := Memory.read_append n [] a h
    simpa using this
  | cons c m ih =>
    obtain ⟨b, v⟩ := c
    simp only [List.cons_append, Memory.read]
    split
    · rfl
    · exact ih

theorem Memory.read_filter (m : Memory) (p : Host.Cell → Bool) (a : Nat) (h : ∀ v, p (a, v) = true) :
    Memory.read (m.filter p) a = Memory.read m a := by
  induction m with
  | nil => rfl
  | cons c m ih =>
    obtain ⟨b, v⟩ := c
    by_cases hb : b = a
    · subst hb; simp [h, Memory.read]
    · rw [List.filter_cons]
      split <;> simp [Memory.read, hb, ih]

theorem cellsFrom_addresses (a : Nat) (vs : List Byte) : ∀ c ∈ cellsFrom a vs, a ≤ c.1 ∧ c.1 < a + vs.length := by
  induction vs generalizing a with
  | nil => simp [cellsFrom]
  | cons v vs ih =>
    intro c hc
    simp only [cellsFrom] at hc
    have step : ∀ c ∈ cellsFrom (a + 1) vs, a ≤ c.1 ∧ c.1 < a + (vs.length + 1) := fun c hc => by
      have := ih (a + 1) c hc; omega
    split at hc
    · simpa using step c hc
    · rcases List.mem_cons.1 hc with rfl | hc
      · simp
      · simpa using step c hc

theorem read_cellsFrom (a : Nat) (vs : List Byte) (i : Nat) (h : i < vs.length) :
    Memory.read (cellsFrom a vs) (a + i) = vs[i] := by
  induction vs generalizing a i with
  | nil => simp at h
  | cons v vs ih =>
    simp only [cellsFrom]
    cases i with
    | zero =>
      have hne : ∀ c ∈ cellsFrom (a + 1) vs, c.1 ≠ a := fun c hc => by
        have := cellsFrom_addresses (a + 1) vs c hc; omega
      split
      · rename_i hv
        have := Memory.read_append _ [] a hne
        simp only [List.append_nil, Memory.read] at this
        simp [this, hv]
      · simp [Memory.read]
    | succ i =>
      have hi : i < vs.length := by simpa using h
      have := ih (a + 1) i hi
      have e : a + 1 + i = a + (i + 1) := by omega
      rw [e] at this
      split
      · simpa using this
      · have hne : a ≠ a + (i + 1) := by omega
        simp only [Memory.read, hne, if_false]
        simpa using this

/-- A written byte reads as it was written. -/
theorem Memory.read_write_inside (m : Memory) (a : Nat) (vs : List Byte) (i : Nat) (h : i < vs.length) :
    (m.write a vs).read (a + i) = vs[i] := by
  have h1 : ∀ c ∈ m.filter (fun c => decide (c.1 < a)), c.1 ≠ a + i := fun c hc => by
    have := (List.mem_filter.1 hc).2; simp at this; omega
  have h2 : ∀ c ∈ m.filter (fun c => decide (a + vs.length ≤ c.1)), c.1 ≠ a + i := fun c hc => by
    have := (List.mem_filter.1 hc).2; simp at this; omega
  unfold Memory.write
  rw [Memory.read_append_right _ _ _ h2, Memory.read_append _ _ _ h1, read_cellsFrom a vs i h]

/-- Every byte outside a write reads as before. -/
theorem Memory.read_write_outside (m : Memory) (a : Nat) (vs : List Byte) (b : Nat) (h : b < a ∨ a + vs.length ≤ b) :
    (m.write a vs).read b = m.read b := by
  have hc : ∀ c ∈ cellsFrom a vs, c.1 ≠ b := fun c hc => by
    have := cellsFrom_addresses a vs c hc; omega
  unfold Memory.write
  rcases h with h | h
  · have h2 : ∀ c ∈ m.filter (fun c => decide (a + vs.length ≤ c.1)), c.1 ≠ b := fun c hc => by
      have := (List.mem_filter.1 hc).2; simp at this; omega
    rw [Memory.read_append_right _ _ _ h2, Memory.read_append_right _ _ _ hc, Memory.read_filter _ _ _ (by simp; omega)]
  · have h1 : ∀ c ∈ m.filter (fun c => decide (c.1 < a)), c.1 ≠ b := fun c hc => by
      have := (List.mem_filter.1 hc).2; simp at this; omega
    rw [List.append_assoc, Memory.read_append _ _ _ h1, Memory.read_append _ _ _ hc, Memory.read_filter _ _ _ (by simp; omega)]

theorem cellsFrom_wf (a : Nat) (vs : List Byte) : Memory.wf (cellsFrom a vs) := by
  induction vs generalizing a with
  | nil => simp [cellsFrom, Memory.wf]
  | cons v vs ih =>
    simp only [cellsFrom]
    split
    · exact ih (a + 1)
    · rename_i hv
      refine ⟨List.pairwise_cons.2 ⟨fun c hc => ?_, (ih (a + 1)).1⟩, fun c hc => ?_⟩
      · have := cellsFrom_addresses (a + 1) vs c hc
        show a < c.1
        omega
      · rcases List.mem_cons.1 hc with rfl | hc
        · exact hv
        · exact (ih (a + 1)).2 c hc

/-- A write keeps the canonical form. -/
theorem Memory.write_wf {m : Memory} (h : m.wf) (a : Nat) (vs : List Byte) : (m.write a vs).wf := by
  have low : ∀ c ∈ m.filter (fun c => decide (c.1 < a)), c.1 < a := fun c hc => by simpa using (List.mem_filter.1 hc).2
  have high : ∀ c ∈ m.filter (fun c => decide (a + vs.length ≤ c.1)), a + vs.length ≤ c.1 := fun c hc => by
    simpa using (List.mem_filter.1 hc).2
  have mid := cellsFrom_addresses a vs
  refine ⟨?_, fun c hc => ?_⟩
  · unfold Memory.write
    refine List.pairwise_append.2 ⟨List.pairwise_append.2 ⟨h.1.filter _, (cellsFrom_wf a vs).1, fun c hc d hd => ?_⟩, h.1.filter _,
      fun c hc d hd => ?_⟩
    · have := low c hc; have := mid d hd; omega
    · have h2 := high d hd
      rcases List.mem_append.1 hc with hc | hc
      · have := low c hc; omega
      · have := mid c hc; omega
  · simp only [Memory.write, List.mem_append] at hc
    rcases hc with (hc | hc) | hc
    · exact h.2 c (List.mem_of_mem_filter hc)
    · exact (cellsFrom_wf a vs).2 c hc
    · exact h.2 c (List.mem_of_mem_filter hc)

/-- The line store has the canonical form right after power-up. -/
theorem reset_store_wf : State.reset.slm.store.wf := by simp [State.reset, State.powerUpValues, Slm.reset, Memory.wf]

/-- The one operation on the state that changes the line store keeps its form. -/
theorem State.writeLine_wf (s : State) (h : s.slm.store.wf) (l : Fin 8) (k : Fin 4) (pl : Place) (line : List Byte) :
    (s.writeLine l k pl line).slm.store.wf := Memory.write_wf h _ _

end Sys2Proof.Machine
end

