-- ==== Sys2Proof/Laws/PerInstr.lean ====
section
/-! SUPPORT. A law of every command as syntax: the command code its constructor names stands in the catalogue of 10.2, with the privilege
of port B that Safety.lean states (R157). -/

namespace Sys2Proof.Laws.CommandCode

open Sys2Proof.Machine

/-- A command on a packet has a row of the catalogue under its code, and port B may send it unless its code is denied from B (10.2). -/
def Statement (i : Instr) : Prop :=
  ∀ p code, i.command = some (p, code) →
    ∃ row ∈ catalogue, commandRow code = some row ∧ row.code = code ∧ (row.fromB = false ↔ code ∈ deniedFromB)

/-- The law holds of a command whose code has a row in the catalogue. -/
theorem statement_of_row {i : Instr} {q : Port} {c : Nat} (h : i.command = some (q, c)) (row : CommandRow)
    (hr : row ∈ catalogue ∧ commandRow c = some row ∧ row.code = c ∧ (row.fromB = false ↔ c ∈ deniedFromB)) : Statement i := by
  intro p code hc
  rw [h] at hc
  obtain ⟨-, rfl⟩ : q = p ∧ c = code := by simpa using hc
  exact ⟨row, hr⟩

/-- The law holds of a step that is not a command on a packet. -/
theorem statement_of_none {i : Instr} (h : i.command = none) : Statement i := by
  intro p code hc
  rw [h] at hc
  cases hc

theorem identify (p : Port) : Statement (.identify p) :=
  statement_of_row rfl ⟨codeIdentify, 0, .any, true⟩ (by decide)
theorem getStatus (p : Port) : Statement (.getStatus p) :=
  statement_of_row rfl ⟨codeGetStatus, 0, .any, true⟩ (by decide)
theorem getStats (p : Port) : Statement (.getStats p) :=
  statement_of_row rfl ⟨codeGetStats, 1, .any, true⟩ (by decide)
theorem getConfig (p : Port) : Statement (.getConfig p) :=
  statement_of_row rfl ⟨codeGetConfig, 2, .any, true⟩ (by decide)
theorem setScale (p : Port) : Statement (.setScale p) :=
  statement_of_row rfl ⟨codeSetScale, 16, .config, false⟩ (by decide)
theorem setPhases (p : Port) : Statement (.setPhases p) :=
  statement_of_row rfl ⟨codeSetPhases, 36, .config, false⟩ (by decide)
theorem setLane (p : Port) : Statement (.setLane p) :=
  statement_of_row rfl ⟨codeSetLane, 16, .config, false⟩ (by decide)
theorem setFraming (p : Port) : Statement (.setFraming p) :=
  statement_of_row rfl ⟨codeSetFraming, 8, .config, false⟩ (by decide)
theorem setLayout (p : Port) : Statement (.setLayout p) :=
  statement_of_row rfl ⟨codeSetLayout, 10, .config, false⟩ (by decide)
theorem setStore (p : Port) : Statement (.setStore p) :=
  statement_of_row rfl ⟨codeSetStore, 2, .config, false⟩ (by decide)
theorem setRoute (p : Port) : Statement (.setRoute p) :=
  statement_of_row rfl ⟨codeSetRoute, 8, .config, false⟩ (by decide)
theorem setPort (p : Port) : Statement (.setPort p) :=
  statement_of_row rfl ⟨codeSetPort, 10, .any, false⟩ (by decide)
theorem setNotices (p : Port) : Statement (.setNotices p) :=
  statement_of_row rfl ⟨codeSetNotices, 2, .any, false⟩ (by decide)
theorem runStart (p : Port) : Statement (.runStart p) :=
  statement_of_row rfl ⟨codeRunStart, 0, .config, false⟩ (by decide)
theorem runStop (p : Port) : Statement (.runStop p) :=
  statement_of_row rfl ⟨codeRunStop, 0, .running, false⟩ (by decide)
theorem reset (p : Port) : Statement (.reset p) :=
  statement_of_row rfl ⟨codeReset, 0, .any, false⟩ (by decide)
theorem pause (p : Port) : Statement (.pause p) :=
  statement_of_row rfl ⟨codePause, 1, .any, true⟩ (by decide)
theorem resume (p : Port) : Statement (.resume p) :=
  statement_of_row rfl ⟨codeResume, 1, .any, true⟩ (by decide)
theorem revoke (p : Port) : Statement (.revoke p) :=
  statement_of_row rfl ⟨codeRevoke, 5, .any, true⟩ (by decide)
theorem retain (p : Port) : Statement (.retain p) :=
  statement_of_row rfl ⟨codeRetain, 4, .any, true⟩ (by decide)
theorem release (p : Port) : Statement (.release p) :=
  statement_of_row rfl ⟨codeRelease, 4, .any, true⟩ (by decide)
theorem reread (p : Port) : Statement (.reread p) :=
  statement_of_row rfl ⟨codeReread, 8, .any, true⟩ (by decide)
theorem setLead (p : Port) : Statement (.setLead p) :=
  statement_of_row rfl ⟨codeSetLead, 2, .any, true⟩ (by decide)
theorem clearNotices (p : Port) : Statement (.clearNotices p) :=
  statement_of_row rfl ⟨codeClearNotices, 2, .any, true⟩ (by decide)
theorem setLoop (p : Port) : Statement (.setLoop p) :=
  statement_of_row rfl ⟨codeSetLoop, 2, .any, false⟩ (by decide)
theorem unknownKind (p : Port) : Statement (.unknownKind p) := statement_of_none rfl
theorem commandReset : Statement .commandReset := statement_of_none rfl
theorem powerUp (encA : Bool) (encB : Bool) : Statement (.powerUp encA encB) := statement_of_none rfl
theorem count (line : EncLine) : Statement (.count line) := statement_of_none rfl
theorem encoderError : Statement .encoderError := statement_of_none rfl
theorem indexEdge (rising : Bool) : Statement (.indexEdge rising) := statement_of_none rfl
theorem stall : Statement .stall := statement_of_none rfl
theorem stallCloseExpiry : Statement .stallCloseExpiry := statement_of_none rfl
theorem entryIssue : Statement .entryIssue := statement_of_none rfl
theorem strobePulseEnd : Statement .strobePulseEnd := statement_of_none rfl
theorem groupDone : Statement .groupDone := statement_of_none rfl
theorem triggersEnded : Statement .triggersEnded := statement_of_none rfl
theorem laneLinkUp (lane : Fin 8) : Statement (.laneLinkUp lane) := statement_of_none rfl
theorem laneLinkLoss (lane : Fin 8) : Statement (.laneLinkLoss lane) := statement_of_none rfl
theorem lanePacketReceived (lane : Fin 8) (bytes : List Byte) : Statement (.lanePacketReceived lane bytes) := statement_of_none rfl
theorem lineTimeout (lane : Fin 8) : Statement (.lineTimeout lane) := statement_of_none rfl
theorem placementComplete (lane : Fin 8) : Statement (.placementComplete lane) := statement_of_none rfl
theorem rewindHoldClear : Statement .rewindHoldClear := statement_of_none rfl
theorem closeAtStop : Statement .closeAtStop := statement_of_none rfl
theorem endOfDraining : Statement .endOfDraining := statement_of_none rfl
theorem portLinkUp (p : Port) : Statement (.portLinkUp p) := statement_of_none rfl
theorem portLinkLoss (p : Port) : Statement (.portLinkLoss p) := statement_of_none rfl
theorem hostPacketReceived (p : Port) (bytes : List Byte) : Statement (.hostPacketReceived p bytes) := statement_of_none rfl
theorem replySent (p : Port) : Statement (.replySent p) := statement_of_none rfl
theorem noticeSent : Statement .noticeSent := statement_of_none rfl
theorem frameOpenSent (p : Port) : Statement (.frameOpenSent p) := statement_of_none rfl
theorem tileSegmentSent (p : Port) : Statement (.tileSegmentSent p) := statement_of_none rfl
theorem tileAbortSent (p : Port) : Statement (.tileAbortSent p) := statement_of_none rfl
theorem frameEndSent (p : Port) : Statement (.frameEndSent p) := statement_of_none rfl
theorem rereadSegmentSent (p : Port) : Statement (.rereadSegmentSent p) := statement_of_none rfl
theorem stagedPortRecord (p : Port) : Statement (.stagedPortRecord p) := statement_of_none rfl
theorem idleTimerExpiry (p : Port) : Statement (.idleTimerExpiry p) := statement_of_none rfl
theorem restSent (p : Port) : Statement (.restSent p) := statement_of_none rfl
theorem wakeTimerExpiry (p : Port) : Statement (.wakeTimerExpiry p) := statement_of_none rfl
theorem pwrOkLow : Statement .pwrOkLow := statement_of_none rfl

end Sys2Proof.Laws.CommandCode
end

