-- ==== Sys2Proof/WellFormed.lean ====
section
/-! DEFINITION. Which commands are well formed. Ports, lanes and lines are bounded by their types; what is left is the length of
a received packet. -/

namespace Sys2Proof

/-- The longest packet of 12.1: a header of 8 bytes, 65,535 payload bytes and a payload check of 4. -/
def maxPacketBytes : Nat := 8 + 65535 + 4

/-- A command is well formed when a packet it brings is no longer than the longest packet of 12.1. -/
def Instr.wellFormed : Instr → Bool
  | .lanePacketReceived _ bytes => decide (bytes.length ≤ maxPacketBytes)
  | .hostPacketReceived _ bytes => decide (bytes.length ≤ maxPacketBytes)
  | .identify _ | .getStatus _ | .getStats _ | .getConfig _ | .setScale _ | .setPhases _ | .setLane _ | .setFraming _
  | .setLayout _ | .setStore _ | .setRoute _ | .setPort _ | .setNotices _ | .runStart _ | .runStop _ | .reset _
  | .pause _ | .resume _ | .revoke _ | .retain _ | .release _ | .reread _ | .setLead _ | .clearNotices _ | .setLoop _
  | .unknownKind _ | .commandReset | .powerUp _ _ | .count _ | .encoderError | .indexEdge _ | .stall
  | .stallCloseExpiry | .entryIssue | .strobePulseEnd | .groupDone | .triggersEnded | .laneLinkUp _ | .laneLinkLoss _
  | .lineTimeout _ | .placementComplete _ | .rewindHoldClear | .closeAtStop | .endOfDraining | .portLinkUp _
  | .portLinkLoss _ | .replySent _ | .noticeSent | .frameOpenSent _ | .tileSegmentSent _ | .tileAbortSent _
  | .frameEndSent _ | .rereadSegmentSent _ | .stagedPortRecord _ | .idleTimerExpiry _ | .restSent _
  | .wakeTimerExpiry _ | .pwrOkLow => true

end Sys2Proof
end

