-- ==== Sys2Proof/Tests/Slice0.lean ====
section
/-! SUPPORT. Tests of the model: the well-formedness checks refusing ill-formed commands, the check values and worked cases that spec/
gives, and for every obligation with hypotheses a state and operands that meet them, clause by clause. Expected results are the
manual's own. -/

namespace Sys2Proof.Tests

-- Each test waits for the kernel's check of those before it: one at a time keeps the threads few.
set_option Elab.async false

open Sys2Proof Sys2Proof.Machine

/-! ## Helpers -/

/-- A command packet that arrived whole. -/
def cmd (kind : Nat) (payload : List Byte) : InPacket :=
  { kind := kind, stream := 0x80, tag := 7, length := payload.length, payload := payload,
    check := if payload = [] then .absent else .pass }

/-- The state with one packet in a port's inbound buffer and the port UP. -/
def arrive (s : State) (p : Port) (c : InPacket) : State := s.setPort p fun h => { h with link := .up, inbound := [c] }

/-- Whether a packet that has arrived may be taken as the command of a code with a payload length. -/
def takes (s : State) (p : Port) (c : InPacket) (code length : Nat) : Bool :=
  decide ((arrive s p c).mayTake p c [] ∧ c.passes code length)

/-- The state a command answers, or the reset state where it does not answer a next state. -/
def after (i : Instr) (s : State) : State :=
  match exec i s with
  | .next t => t
  | _ => State.reset

/-- The reset state in a run state. -/
def inRun (r : RunState) : State := { State.reset with rnc := { Rnc.reset with runState := r } }

/-- Whether the frames of a state, their slots and their delivery records agree. -/
def framesAgree (s : State) : Bool := decide s.framesOk

theorem framesOk_of {s : State} (h : framesAgree s = true) : s.framesOk := of_decide_eq_true h

/-! ## Well-formedness -/

theorem test_wellFormed_refuses_long_lane_packet :
    Instr.wellFormed (.lanePacketReceived 0 (List.replicate 65548 0)) = false := by
  simp only [Instr.wellFormed, List.length_replicate]
  rfl

theorem test_wellFormed_refuses_long_host_packet :
    Instr.wellFormed (.hostPacketReceived .a (List.replicate 65548 0)) = false := by
  simp only [Instr.wellFormed, List.length_replicate]
  rfl

theorem test_wellFormed_accepts_longest_packet :
    Instr.wellFormed (.hostPacketReceived .b (List.replicate 65547 0)) = true := by
  simp only [Instr.wellFormed, List.length_replicate]
  rfl

/-! ## Packet checks (R187) -/

/-- The nine ASCII bytes "123456789". -/
def nine : List Byte := [0x31, 0x32, 0x33, 0x34, 0x35, 0x36, 0x37, 0x38, 0x39]

theorem test_header_check_value : crc16 nine = 0x29B1 := by decide +kernel

theorem test_payload_check_value : crc32 nine = 0xCBF43926 := by decide +kernel

/-! ## Worked cases of 01 -/

/-- The scale record of the tick spacing case: 12,500 nm a count, 85,000 nm a line. -/
def spacingScale : ScaleRecord := { ScaleRecord.default with step := 12500, pitch := 85000, reverseLimit := 3 }

/-- That record with A, T and H as the case has them, in CONFIG. -/
def web (acc : Nat) (tick high : Int) : State :=
  { State.reset with ptk := { State.reset.ptk with scale := spacingScale, acc := acc, tick := tick, high := high } }

/-- One forward count from the levels at reset: ENC_A rises with ENC_B low. -/
def forward (s : State) : Nat × Int × Int :=
  let t := after (.count .encA) s
  (t.ptk.acc, t.ptk.tick, t.ptk.high)

/-- One reverse count: ENC_B rises with ENC_A low. -/
def backward (s : State) : Nat × Int × Int :=
  let t := after (.count .encB) s
  (t.ptk.acc, t.ptk.tick, t.ptk.high)

theorem test_tick_spacing :
    forward (web 75000 0 0) = (2500, 1, 1) ∧ forward (web 72500 4 4) = (0, 5, 5) ∧ forward (web 0 5 5) = (12500, 5, 5) := by
  decide +kernel

theorem test_backup_at_a_splice :
    backward (web 2500 500 500) = (75000, 499, 500) ∧ backward (web 0 499 500) = (72500, 498, 500)
      ∧ forward (web 72500 498 500) = (0, 499, 500) ∧ forward (web 77500 500 500) = (5000, 501, 501)
      ∧ backward (web 0 498 500) = (72500, 497, 497) := by
  decide +kernel

theorem test_speed_readings :
    ({ (web 0 9 9).ptk with motion := .moving, interval := some 875 } : Ptk).speed = 9714
      ∧ ({ (web 0 9 9).ptk with motion := .moving, interval := some 750 } : Ptk).speed = 11333
      ∧ ({ (web 0 9 9).ptk with motion := .moving, interval := some 20000, scale := ScaleRecord.default } : Ptk).speed = 500 := by
  decide +kernel

/-! ## Worked cases of 02 -/

/-- The phase table of the steady rotation, and its loop 0 to 3; entries 4 to 7 repeat it. -/
def rotation : Tru :=
  let e (plane : Fin 4) (strobe : BitVec 6) (last : Bool) : PhaseEntry :=
    { plane := plane, strobe := strobe, exposure := 30, endOfGroup := last }
  { Tru.reset with
    table := ⟨e 0 1 false, e 1 2 true, e 0 4 false, e 1 8 true, e 0 1 false, e 1 2 true, e 0 4 false, e 1 8 true⟩,
    loop := { first := 0, last := 3 }, spacing := 40 }

theorem test_steady_rotation_groups :
    loopOk rotation.table rotation.loop 40 = true ∧ groupAt rotation.table 0 = [0, 1] ∧ groupAt rotation.table 2 = [2, 3]
      ∧ afterGroup rotation.loop [0, 1] = 2 ∧ afterGroup rotation.loop [2, 3] = 0 ∧ rotation.planes = [0, 1]
      ∧ loopOk rotation.table rotation.loop 30 = false ∧ loopOk rotation.table { first := 0, last := 2 } 40 = false := by
  decide +kernel

/-- The steady rotation with the group of entries 0 and 1 issued at time 0. -/
def grouped (skipped : Nat) : State :=
  { inRun .running with tru := { rotation with
      skipped := skipped, group := some { tick := 2001, time := 0, entries := [0, 1], issued := 2, pointerSet := false } } }

theorem test_group_done_at_8_us :
    (after .groupDone (grouped 0)).tru.pointer = 2 ∧ (after .groupDone (grouped 0)).now = 800 := by decide +kernel

theorem test_group_done_skips_a_group :
    (after .groupDone (grouped 1)).tru.pointer = 0 ∧ (after .groupDone (grouped 1)).tru.skipped = 0 := by decide +kernel

/-- A lane with D = 12 that holds n records. -/
def waiting (n : Nat) : State :=
  let q := (List.range n).map fun i : Nat =>
    ({ tag := 900 + i, tick := 4000, entry := 0, plane := 0, deadline := 0, rejoin := false } : TrigRecord)
  State.setLane (grouped 0) 3 fun x =>
    { x with record := { x.record with offset := 12 }, state := .active, queue := q, nextTag := 900 + n }

theorem test_a_lane_at_its_limit :
    ((waiting 63).offerEntry 5000 2 (rotation.table.get 2) 3).lanes.e3.nextTag = 964
      ∧ ((waiting 64).offerEntry 5000 3 (rotation.table.get 3) 3).lanes.e3.nextTag = 964
      ∧ ((waiting 64).offerEntry 5000 3 (rotation.table.get 3) 3).ntu.counters.lanes.e3.withheld = 1 := by
  decide +kernel

theorem test_staged_switch :
    let t := State.takeBoundary
      { inRun .running with
        tru := { rotation with pointer := 2, staged := some { first := 4, last := 7 } },
        frt := { Frt.reset with state := .tracking, counter := 251 } } 1004003 .index
    t.tru.loop = { first := 4, last := 7 } ∧ t.tru.staged = none ∧ t.tru.pointer = 4 := by
  decide +kernel

/-! ## Worked cases of 03 and 04 -/

theorem test_lane_progress :
    let q (tag : Nat) (tick : Int) (k : Fin 4) : TrigRecord :=
      { tag := tag, tick := tick, entry := 0, plane := k, deadline := 0, rejoin := false }
    let s (queue : List TrigRecord) : State := State.setLane State.reset 2 fun n =>
      { n with record := { n.record with offset := 10 }, queue := queue }
    (s [q 101 7001 1, q 102 7002 0]).progress 7003 2 = 6990 ∧ (s [q 104 7003 0, q 105 7003 1]).progress 7003 2 = 6992
      ∧ (s []).progress 7003 2 = 6993 := by
  decide +kernel

/-- Framing at the index boundaries case: frame 250 taken at 1,000,000. -/
def indexed (tolerance : Nat) : Frt :=
  { Frt.reset with
    record := { mode := .indexed, nominal := 4000, tolerance := tolerance, offset := 20 }, state := .tracking,
    lastBoundary := some 1000000 }

theorem test_index_boundaries :
    (indexed 40).judge 1003950 1 = (none, 1) ∧ (indexed 40).judge 1004003 1 = (some .index, 0)
      ∧ (indexed 40).judge 1003960 2 = (some .index, 1) ∧ (indexed 40).judge 1004040 0 = (some .synth, 0)
      ∧ (indexed 200).judge 1004190 1 = (some .index, 0) := by
  decide +kernel

theorem test_fifth_open_frame_is_dropped :
    let f (n : Nat) : OpenFrame := { number := n, slot := n, start := 1000 * n + 1, stop := none, truncated := false }
    let s := State.openFrame { inRun .running with frt := { Frt.reset with openList := [f 0, f 1, f 2, f 3] } } 4 4001 .fixed
    s.ntu.counters.frames.droppedOpenLimit = 1 ∧ s.frt.openList.length = 4 := by
  decide +kernel

/-! ## Worked cases of 05 -/

/-- The layout and lanes of a row capacity case: widths W on both sides, planes 0 to 3, a lane on each side named. -/
def capacityOf (slots width : Nat) (bottom : Bool) (tru : Tru) : Nat :=
  let s := { State.reset with
    slm := { State.reset.slm with record := { StoreRecord.default with count := slots } },
    layout := { LayoutRecord.default with widthTop := width, widthBottom := width }, tru := tru }
  let s := s.setLane 0 fun n => { n with record := { n.record with enable := true } }
  (s.setLane 1 fun n => { n with record := { n.record with enable := bottom, side := .bottom } }).rowCapacity

theorem test_row_capacity :
    let four := { Tru.reset with
      table := ⟨{ PhaseEntry.default with endOfGroup := false }, { PhaseEntry.default with plane := 1, endOfGroup := false },
        { PhaseEntry.default with plane := 2, endOfGroup := false }, { PhaseEntry.default with plane := 3 },
        PhaseEntry.default, PhaseEntry.default, PhaseEntry.default, PhaseEntry.default⟩,
      loop := { first := 0, last := 3 } }
    capacityOf 8 8192 false Tru.reset = 65535 ∧ capacityOf 3 32768 true four = 5461 ∧ capacityOf 32 32768 true four = 512
      ∧ capacityOf 16 16128 true rotation = 4161 := by
  decide +kernel

/-- The arrivals of the fill-run case on lane 2, plane 1. -/
def frame60 : Slot :=
  let x := { Slot.empty with state := .opened, alloc := 1, frame := 60, start := 6000 }
  [(0, Resolution.filled .lost), (1, .written), (2, .filled .overspeed), (3, .filled .lost), (4, .filled .lost),
    (6, .filled .overspeed), (5, .written), (7, .written)].foldl (fun x a => x.resolved 2 1 a.1 a.2) x

theorem test_fill_run_list :
    frame60.fillRuns.map (fun e => (e.cause, e.first, e.count))
      = [(.lost, 0, 1), (.overspeed, 2, 1), (.lost, 3, 2), (.overspeed, 6, 1)] := by
  decide +kernel

theorem test_hold_substitution :
    (List.range 8).map (frame60.rowSource 2 1)
      = [.fillValue, .stored 1, .stored 1, .stored 1, .stored 1, .stored 5, .stored 5, .stored 7] := by
  decide +kernel

/-- The slot table of the eviction case; frame f has allocation number f. -/
def smallStore : State :=
  let x (f : Nat) (state : SlotState) (retain : Bool) : Slot :=
    { Slot.empty with state := state, alloc := f, frame := f, retain := retain }
  let d (slot alloc : Nat) (state : RecordState) : Delivery := { Delivery.fresh slot alloc with state := state }
  { inRun .running with
    slm := { State.reset.slm with
      record := { count := 4, policy := .dropOldest }, allocCounter := 13,
      slots := [x 10 .closed false, x 11 .closed false, x 12 .closed true, x 13 .opened false] },
    dle := { Dle.reset with
      records := { Dle.reset.records with
        e0 := [d 0 10 .opened, d 1 11 .pending, d 2 12 .pending, d 3 13 .pending], e1 := [d 0 10 .done, d 2 12 .pending] } } }

theorem test_eviction_in_a_small_store :
    smallStore.victim = some 1 ∧ (smallStore.allocate 14 0 .fixed).1 = some 1
      ∧ ((smallStore.allocate 14 0 .fixed).2.slot 1).frame = 14
      ∧ (smallStore.allocate 14 0 .fixed).2.recordOf 0 11 = none := by
  decide +kernel

/-! ## Worked cases of 06 and 07 -/

/-- The records of the placing case: lanes 0 and 1 on side 0, lane 4 on side 1, the rotation's planes 0 and 1, 16 slots, and frame
300 open in slot 0 from 1,000,000. -/
def placing : State :=
  let lane (side : Side) (offset first last column : Nat) : LaneRecord :=
    { LaneRecord.default with enable := true, side := side, offset := offset, keepFirst := first, keepLast := last, column := column }
  let s := { inRun .running with
    tru := rotation, layout := { widthTop := 16128, widthBottom := 16128, tileWidth := 4096, tileHeight := 256, planes := 3 },
    slm := { State.reset.slm with record := { StoreRecord.default with count := 16 } } }
  let s := s.setLane 0 fun n => { n with state := .active, record := lane .top 0 64 8127 0 }
  let s := s.setLane 1 fun n => { n with state := .active, record := lane .top 36 64 8127 8064 }
  let s := s.setLane 4 fun n => { n with state := .active, record := lane .bottom 12 0 4095 0 }
  s.setUpSlot 0 300 1000000 .fixed

theorem test_placing_a_line :
    placing.lineAddress 1 1 { slot := 0, row := 64, alloc := 1 } = 4152960
      ∧ placing.lineAddress 0 1 { slot := 0, row := 64, alloc := 1 } = 4144896
      ∧ placing.keeper (1000100 - 36) = some 0 ∧ (placing.slot 0).geometry.layers = [0, 1, 4, 5]
      ∧ (placing.slot 0).geometry.rowBytes = 64512 ∧ (placing.slot 0).geometry.layerOffset 5 = 48384 := by
  decide +kernel

theorem test_early_bands :
    let ready (high : Int) :=
      let x := ({ placing with ptk := { placing.ptk with high := high } } : State).readinessTest.slot 0
      (x.ready.top, x.ready.bottom)
    ready 1000250 = ([0, 0, 0, 0], [0, 0, 0, 0]) ∧ ready 1000260 = ([1, 0, 0, 0], [0, 0, 0, 0])
      ∧ ready 1000267 = ([1, 0, 0, 0], [1, 1, 1, 1]) ∧ ready 1000291 = ([1, 1, 1, 1], [1, 1, 1, 1])
      ∧ ready 1000511 = ([2, 1, 1, 1], [1, 1, 1, 1]) := by
  decide +kernel

theorem test_column_orders :
    (Plan.mk [] 0 5 3).columnOrder = [3, 2, 1, 0, 5, 4] ∧ (Plan.mk [] 0 3 2).columnOrder = [2, 3, 0, 1]
      ∧ (Plan.mk [] 2 12 9).columnOrder = [9, 8, 7, 6, 5, 4, 3, 2, 12, 11, 10] ∧ (Plan.mk [] 1 3 3).columnOrder = [3, 1, 2]
      ∧ (Plan.mk [] 0 127 0).columnOrder = List.range 128 := by
  decide +kernel

theorem test_plan_across_two_sides :
    let g : Geometry :=
      { widthTop := 16128, widthBottom := 8192, tileWidth := 4096, tileHeight := 256, layers := [0, 1, 4, 5], lanes := [] }
    let plan := planOf { RouteRecord.default with layers := 0b01110001, colFirst := 1, colLast := 5, lead := 4 } g
    plan = { layers := [0, 4, 5], colFirst := 1, colLast := 3, lead := 3 }
      ∧ plan.bandTiles g = [(3, 0), (1, 0), (1, 4), (1, 5), (2, 0)] := by
  decide +kernel

theorem test_rows_per_segment :
    rowsPerSegment 32768 4096 = 7 ∧ rowsPerSegment 32768 3840 = 8 ∧ rowsPerSegment 4112 4096 = 1 := by decide +kernel

/-! ## Worked case of 10 -/

theorem test_order_of_checks :
    let s := { State.reset with slm := { State.reset.slm with
      slots := List.replicate 4 Slot.empty ++ [{ Slot.empty with state := .held, frame := 5, alloc := 1 }] } }
    s.firstRefusal .a (cmd 0x15 [40, 1]) = some .busy ∧ State.reset.firstRefusal .a (cmd 0x15 [40, 1]) = none
      ∧ readStore [40, 1] = none ∧ State.reset.firstRefusal .a (cmd 0x15 [16, 1, 0]) = some .badLength
      ∧ s.firstRefusal .a (cmd 0x21 []) = some .busy ∧ s.firstRefusal .b (cmd 0x21 []) = some .denied
      ∧ s.firstRefusal .b (cmd 0x35 [9, 0, 0, 0, 9, 0, 0, 0]) = none ∧ s.lookupHeld 9 = none := by
  decide +kernel

/-! ## Frames in store -/

/-- Frame 5 in slot 0 with allocation number 1, in a state, with route 0's record in a state, both ports UP. -/
def stored (x : SlotState) (d : RecordState) : State :=
  { inRun .running with
    ports := { a := { HostPort.reset with link := .up }, b := { HostPort.reset with link := .up } },
    slm := { State.reset.slm with
      allocCounter := 1,
      slots := [{ Slot.empty with
        state := x, alloc := 1, frame := 5, rowCount := some 8, outstanding := [0],
        geometry := { widthTop := 1024, widthBottom := 0, tileWidth := 512, tileHeight := 4, layers := [0], lanes := [] } }] },
    dle := { Dle.reset with records := { Dle.reset.records with e0 := [{ Delivery.fresh 0 1 with state := d, plan := some ⟨[0], 0, 1, 0⟩ }] } } }

/-- The state with a packet in transmission on a port that is UP. -/
def sending (s : State) (p : Port) (x : TxSource) : State :=
  s.setPort p fun h => { h with link := .up, tx := some { source := x, packet := restPacket } }

/-- Frame 5 on route 0 with its record and port A changed. -/
def delivering (x : SlotState) (g : Delivery → Delivery) (h : HostPort → HostPort) : State :=
  let s := (stored x .opened).setPort .a h
  { s with dle := { s.dle with records := { s.dle.records with e0 := s.dle.records.e0.map g } } }

/-- The placing case with k frames open from 1,000,000 on, 4,000 rows each, in slots 0 to k − 1, the newest unbounded, and slots in the
states named after them; route 0 has a PENDING record for the first, and H is a tick. -/
def tracked (k : Nat) (states : List SlotState) (high : Int) : State :=
  let start (j : Nat) : Int := 1000000 + 4000 * (j : Int)
  let frames := (List.range k).map fun j : Nat =>
    ({ number := 300 + j, slot := j, start := start j, stop := if j + 1 < k then some (start (j + 1)) else none,
       truncated := false } : OpenFrame)
  let opens := frames.map fun f =>
    { placing.slot 0 with
      alloc := f.slot + 1, frame := f.number, start := f.start, stop := f.stop, outstanding := if f.slot = 0 then [0] else [] }
  let others := (List.range states.length).zipWith (fun j x =>
    if x = SlotState.free then Slot.empty else { placing.slot 0 with state := x, alloc := k + j + 1, frame := j }) states
  { placing with
    ptk := { placing.ptk with tick := high, high := high },
    frt := { Frt.reset with state := .tracking, lastBoundary := some 1000000, counter := 300 + k, openList := frames, capacity := 4161 },
    slm := { placing.slm with allocCounter := 16, slots := opens ++ others },
    dle := { placing.dle with records := { placing.dle.records with e0 := [Delivery.fresh 0 1] } } }

theorem tracked_framesOk :
    (tracked 4 [.held, .closed, .free] 1000100).framesOk ∧ (tracked 2 [.closed] 1004035).framesOk :=
  ⟨framesOk_of (by decide +kernel), framesOk_of (by decide +kernel)⟩

/-- Of the two frames the older is finished at high-water mark 1,004,035, with lane 1's D of 36, and not one tick sooner. -/
theorem test_close_test :
    (tracked 2 [] 1004034).progressed.frt.openList.length = 2
      ∧ (tracked 2 [] 1004035).progressed.frt.openList.map OpenFrame.number = [301]
      ∧ ((tracked 2 [] 1004035).progressed.slot 0).rowCount = some 4000
      ∧ ((tracked 2 [] 1004035).progressed.slot 0).closeReason = some .normal := by
  decide +kernel

/-- The frames of that state as the open list has them. -/
def older : OpenFrame := { number := 300, slot := 0, start := 1000000, stop := some 1004000, truncated := false }
def newest : OpenFrame := { number := 301, slot := 1, start := 1004000, stop := none, truncated := false }

theorem older_passes : (tracked 2 [.closed] 1004035).passesClose 1004035 older := ⟨1004000, rfl, by decide +kernel⟩

theorem newest_fails (s : State) (high : Int) : ¬ s.passesClose high newest := by rintro ⟨e, h, -⟩; cases h

/-! ## Witnesses: steps and the taking of commands -/

theorem witness_StepTakesTheFrontCommand :
    ({ State.reset with pending := [.stall, .encoderError] } : State).pending = .stall :: [.encoderError] ∧ State.reset.pending = [] := by
  decide +kernel

/-- A slot that holds a frame of eight layers of 32,768 columns, the second of two. -/
def lastSlot : Slot :=
  { Slot.empty with
    state := .opened, alloc := 1,
    geometry := { widthTop := 32768, widthBottom := 32768, tileWidth := 256, tileHeight := 8, layers := List.range 8, lanes := [] } }

/-- Lane 0 with a placement in the second of two slots, in a row. -/
def placedAt (row : Nat) : State :=
  State.setLane
    { State.reset with slm := { State.reset.slm with
      record := { StoreRecord.default with count := 2 }, slots := [Slot.empty, lastSlot] } } 0 fun n =>
    { n with placements :=
      [{ plane := 0, tick := 0, position := 0, pixels := List.replicate 8192 1, place := some { slot := 1, row := row, alloc := 1 } }] }

theorem witness_CommandsAnswerANextState :
    (∃ y ys, ((placedAt 8192).lanes.get 0).placements = y :: ys ∧ (placedAt 8192).placementOutside 0 y = true)
      ∧ ∃ y ys, ((placedAt 8191).lanes.get 0).placements = y :: ys ∧ (placedAt 8191).placementOutside 0 y = false :=
  ⟨⟨_, _, rfl, by decide +kernel⟩, ⟨_, _, rfl, by decide +kernel⟩⟩

/-- Port A UP, free and set to rest after 10 µs, its idle timer started that long ago less a number of 10 ns units. -/
def resting (less : Nat) : State :=
  { State.reset.setPort .a fun h =>
      { h with link := .up, idleTimer := some less, record := { h.record with restEnable := true, restDelay := 10 } } with now := 1000 }

theorem witness_PortChoicesLeaveTheRest :
    (State.reset.ports.get .b).link = .down ∧ ((sending State.reset .a .reply).ports.get .a).tx.isSome := by decide +kernel

/-- O3 on rest: every rest condition met with the idle timer at the rest delay, and one unit short of it. -/
theorem witness_PortChoicesLeaveTheRest_rests :
    ∀ s ∈ [resting 0, resting 1], (s.ports.get .a).link = .up ∧ ((s.formOpens .a).choose .a).mayRest .a
      ∧ (decide (10 * 100 ≤ s.now - (s.ports.get .a).idleTimer.getD s.now)
        = (((s.settlePort .a false).ports.get .a).tx = some { source := .rest, packet := restPacket } : Bool)) := by
  decide +kernel

/-- Frame 5 delivered early with ready-band counts, its record PENDING. -/
def early (counts : List Nat) : State :=
  let s := (delivering .opened (fun d => { d with state := .pending, plan := none }) id).setSlot 0 fun x =>
    { x with rowCount := none, closeReason := none, ready := { closed := false, top := counts, bottom := [] } }
  { s with dle := { s.dle with routes := { s.dle.routes with e0 := { RouteRecord.default with enable := true, early := true } } } }

/-- O3 on the FRAME_OPENs formed: a frame CLOSED or delivered early with band 0 of its first column ready, and one that is not. -/
theorem witness_PortChoicesLeaveTheRest_forms :
    (∀ s ∈ [early [1, 0], early [0, 1]], (s.ports.get .a).link = .up ∧ (s.dle.routes.get 0).port = .a
        ∧ s.current 0 = s.recordOf 0 1 ∧ (s.recordOf 0 1).map (fun d => (d.state, d.opening)) = some (.pending, none)
        ∧ s.dle.paused.getLsbD 0 = false)
      ∧ ((early [1, 0]).openSendable 0 ((early [1, 0]).slot 0) ⟨[0], 0, 1, 0⟩)
      ∧ ¬ ((early [0, 1]).openSendable 0 ((early [0, 1]).slot 0) ⟨[0], 0, 1, 0⟩)
      ∧ planOf ((early [0, 1]).dle.routes.get 0) ((early [0, 1]).slot 0).geometry = ⟨[0], 0, 1, 0⟩
      ∧ (stored .closed .pending).openSendable 0 ((stored .closed .pending).slot 0) ⟨[0], 0, 1, 0⟩ := by
  refine ⟨by decide +kernel, Or.inr ⟨by decide +kernel, ⟨0, 0, [(1, 0)], by decide +kernel, by decide +kernel⟩, by decide +kernel⟩, ?_,
    by decide +kernel, Or.inl (by decide +kernel)⟩
  rintro (h | ⟨-, ⟨c, n, rest, h, h'⟩, -⟩)
  · revert h; decide +kernel
  · obtain ⟨⟨rfl, rfl⟩, -⟩ : ((0, 0) = (c, n)) ∧ [(1, 0)] = rest := List.cons.inj ((by decide +kernel : [(0, 0), (1, 0)] = Plan.bandTiles ⟨[0], 0, 1, 0⟩ ((early [0, 1]).slot 0).geometry).trans h)
    revert h'; decide +kernel

/-- O3 on what a route offers: each state of a record, and the place of its cursor at the ends of the bands. -/
theorem witness_PortChoicesLeaveTheRest_offers :
    let opened (index band : Nat) (g : Delivery → Delivery) :=
      delivering .closed (fun d => g { d with cursor := { band := band, index := index, row := 0 } }) id
    let unbounded (counts : List Nat) := ({ opened 0 0 id with dle := (opened 0 0 id).dle } : State).setSlot 0 fun x =>
      { x with state := .opened, rowCount := none, ready := { closed := false, top := counts, bottom := [] } }
    Plan.bandTiles ⟨[0], 0, 1, 0⟩ ((opened 0 0 id).slot 0).geometry = [(0, 0), (1, 0)]
      ∧ (opened 0 0 fun d => { d with tileOpen := true }).offer 0 = none
      ∧ (opened 0 0 fun d => { d with revoke := true }).offer 0 = some (.frameEnd true)
      ∧ (opened 0 0 fun d => { d with state := .pending, revoke := true }).offer 0 = none
      ∧ ({ opened 0 0 id with dle := { (opened 0 0 id).dle with paused := 1 } } : State).offer 0 = none
      ∧ (opened 0 0 fun d => { d with state := .pending, opening := some restPacket }).offer 0 = some (.frameOpen restPacket)
      ∧ (opened 1 1 id).offer 0 = some (.tile 1 0) ∧ (opened 0 2 id).offer 0 = some (.frameEnd false)
      ∧ (opened 2 0 id).offer 0 = some (.frameEnd false)
      ∧ (unbounded [1, 0]).offer 0 = some (.tile 0 0) ∧ (unbounded [0, 1]).offer 0 = none := by
  decide +kernel

/-- O3 on the port's choice: a reply before a notice before a tile in progress before a source; a port record staged; nothing to send. -/
theorem witness_PortChoicesLeaveTheRest_chooses :
    let port (f : HostPort → HostPort) := delivering .closed (fun d => { d with span := some { stop := 4, rowsPerSegment := 2 } }) f
    let reread (s : State) := s.setRereads .a fun _ => [⟨0, 1, 5, 0, 0, 0, 0, 4, 0, none, false⟩]
    let all := [port fun h => { h with replies := [some restPacket], notices := [restPacket] },
      port fun h => { h with replies := [none, some restPacket], notices := [restPacket] },
      port fun h => { h with tile := some (.route 0) }, reread (port fun h => { h with tile := some .reread }),
      port fun h => { h with staged := some PortRecord.default }, port id]
    (∀ s ∈ all, (s.ports.get .a).link = .up ∧ (s.ports.get .a).tx = none ∧ s.rnc.resetDue = false)
      ∧ all.map (fun s => ((s.choose .a).ports.get .a).tx.map fun x => (x.source, x.packet.kind))
        = [some (.reply, 0x86), some (.notice, 0x86), some (.segment 0 1 2 false, 0x83), some (.reread 1 4 true, 0x83), none,
            some (.segment 0 1 4 true, 0x83)]
      ∧ (((delivering .closed (fun d => { d with tileOpen := true, revoke := true, span := some { stop := 4, rowsPerSegment := 2 } })
          fun h => { h with tile := some (.route 0) }).choose .a).ports.get .a).tx.map Tx.source = some (.tileAbort 0 1) := by
  decide +kernel

/-- O3 on the cyclic order: from the pointer past the last source to route 0, and all the way round to the rereads. -/
theorem witness_PortChoicesLeaveTheRest_cycles :
    let s (d : RecordState) := (stored .held d).setRereads .a fun _ => [⟨0, 1, 5, 0, 0, 0, 0, 4, 0, none, false⟩]
    (s .opened).firstAfter .a 8 0 ∧ (s .opened).firstAfter .a 0 8 ∧ (s .done).firstAfter .a 8 8
      ∧ ∀ r, (s .done).offer r = none := by
  refine ⟨⟨1, by decide, by decide, by decide, by decide +kernel, fun m h h' => absurd h (by omega)⟩,
    ⟨8, by decide, by decide, by decide, by decide +kernel, fun m h h' j hj => ?_⟩,
    ⟨9, by decide, by decide, by decide, by decide +kernel, fun m h h' j hj => ?_⟩, by decide +kernel⟩
  · exact (by decide +kernel : ∀ j : Fin 9, j.val ≠ 0 → j.val ≠ 8 →
      ¬ ((stored .held .opened).setRereads .a fun _ => [⟨0, 1, 5, 0, 0, 0, 0, 4, 0, none, false⟩]).hasUnit .a j) j (by omega) (by omega)
  · exact (by decide +kernel : ∀ j : Fin 9, j.val ≠ 8 →
      ¬ ((stored .held .done).setRereads .a fun _ => [⟨0, 1, 5, 0, 0, 0, 0, 4, 0, none, false⟩]).hasUnit .a j) j (by omega)

theorem witness_ProgressTestsLeaveTheRest :
    (tracked 2 [.closed] 1004035).frt.openList = [older, newest] ∧ (tracked 2 [.closed] 1004035).ptk.high = 1004035
      ∧ (∀ f ∈ [older, newest].take 1, (tracked 2 [.closed] 1004035).passesClose 1004035 f)
      ∧ (∀ f, [older, newest][1]? = some f → ¬ (tracked 2 [.closed] 1004035).passesClose 1004035 f)
      ∧ (∀ f ∈ [older, newest].take 1, f.slot ≠ 1) ∧ ((tracked 2 [.closed] 1004035).slot 2).state ≠ .opened
      ∧ ((tracked 2 [] 1004035).progressed.slot 1).state = .opened
      ∧ 0 < ((tracked 2 [] 1004035).slot 1).geometry.tileHeight ∧ 3 < (((tracked 2 [] 1004035).slot 1).ready.counts .top).length := by
  refine ⟨by decide +kernel, by decide +kernel, ?_, ?_, by decide +kernel, by decide +kernel, by decide +kernel, by decide +kernel,
    by decide +kernel⟩
  · intro f hf
    obtain rfl : f = older := by simpa using hf
    exact older_passes
  · intro f hf
    obtain rfl : newest = f := by simpa using hf
    exact newest_fails _ _

theorem witness_RefusedCommandsOnlyReply :
    let c := cmd 0x21 []
    (Instr.runStop .b).command = some (.b, 0x21) ∧ (arrive State.reset .b c).mayTake .b c [] ∧ c.kind = 0x21
      ∧ (arrive State.reset .b c).firstRefusal .b c = some .denied := by
  decide +kernel

theorem witness_ChecksAreJudgedInOrder :
    let row (n : Nat) : CommandRow := catalogue.getD n ⟨0, 0, .any, true⟩
    let held := { State.reset with slm := { State.reset.slm with slots := [{ Slot.empty with state := .held }] } }
    ({ cmd 0x20 [] with check := .fail } : InPacket).check = .fail
      ∧ (∀ k ∈ [0x00, 0x05, 0x0F, 0x19, 0x1F, 0x23, 0x2F, 0x39, 0xFF], (cmd k []).check ≠ .fail ∧ (cmd k []).kind ∉ commandCodes)
      ∧ row 4 ∈ catalogue ∧ (cmd 0x10 (List.replicate 15 0)).length ≠ (row 4).length
      ∧ (cmd 0x10 (List.replicate 17 0)).length ≠ (row 4).length
      ∧ (cmd 0x10 (List.replicate 16 0)).kind = (row 4).code ∧ (cmd 0x10 (List.replicate 16 0)).length = (row 4).length
      ∧ (row 4).code ∈ deniedFromB ∧ (row 4).code ∈ configCodes ∧ (inRun .draining).rnc.runState ≠ .config
      ∧ row 14 ∈ catalogue ∧ (row 14).code = 0x21 ∧ (inRun .draining).rnc.runState ≠ .running
      ∧ row 9 ∈ catalogue ∧ (row 9).code = 0x15 ∧ 0 < held.slotsIn .held ∧ State.reset.slotsIn .held = 0
      ∧ row 16 ∈ catalogue ∧ (row 16).code ∉ deniedFromB ∧ (row 16).code ∉ configCodes := by
  decide +kernel

theorem witness_UnknownKindsAreAnswered :
    (arrive State.reset .b (cmd 0xFF [])).mayTake .b (cmd 0xFF []) [] ∧ (cmd 0xFF []).kind ∉ commandCodes
      ∧ ({ cmd 0x39 [] with check := .fail } : InPacket).kind ∉ commandCodes := by
  decide +kernel

theorem witness_CommandsWaitUntilTheyCanBeTaken :
    (Instr.identify .a).command = some (.a, 0x01) ∧ State.reset.ports.a.inbound = []
      ∧ (arrive State.reset .a (cmd 0x02 [])).ports.a.inbound = [cmd 0x02 []] ∧ (cmd 0x02 []).kind ≠ 0x01
      ∧ 8 ≤ ((State.reset.setPort .a fun h => { h with replies := List.replicate 8 none }).ports.get .a).replies.length
      ∧ (({ State.reset with rnc := { Rnc.reset with inHand := { a := some (cmd 0x17 []), b := none } } } : State).rnc.inHand.get .a).isSome
      ∧ ({ State.reset with rnc := { Rnc.reset with resetPending := true } } : State).rnc.resetPending = true := by
  decide +kernel

/-! ## Witnesses: reading the part -/

theorem witness_IdentifyReturnsTheIdentityRecord : takes (inRun .draining) .b (cmd 0x01 []) 0x01 0 := by decide +kernel

theorem witness_GetStatusReadsThePart :
    takes State.reset .a (cmd 0x02 []) 0x02 0 ∧ State.reset.ptk.motion = .stalled ∧ State.reset.ptk.interval = none
      ∧ (web 0 4 5).ptk.tick < (web 0 4 5).ptk.high ∧ (web 0 5 5).ptk.high ≤ (web 0 5 5).ptk.tick
      ∧ takes { web 0 5 5 with ptk := { (web 0 5 5).ptk with motion := .moving, interval := some 1 } } .b (cmd 0x02 []) 0x02 0
      ∧ (web 0 (-140737488355327) 0).ptk.high - (web 0 (-140737488355327) 0).ptk.tick ≤ 140737488355327
      ∧ (∀ x ∈ State.reset.slm.slots, x.state = .free) ∧ takes smallStore .a (cmd 0x02 []) 0x02 0
      ∧ (∃ x ∈ smallStore.slm.slots, x.state ≠ .free) ∧ (smallStore.slot 0).state ≠ .free
      ∧ (∀ j < 4, (smallStore.slot j).state ≠ .free → j ≠ 0 → (smallStore.slot 0).alloc < (smallStore.slot j).alloc)
      ∧ (∀ j < 4, (smallStore.slot j).state ≠ .free → j ≠ 3 → (smallStore.slot j).alloc < (smallStore.slot 3).alloc)
      ∧ smallStore.slm.slots.length = 4 := by
  decide +kernel

theorem witness_GetStatsReadsAndClears :
    ∀ v ∈ [0, 1, 2, 255], takes State.reset .b (cmd 0x03 [v]) 0x03 1 ∧ byteAt (cmd 0x03 [v]).payload 0 = v.toNat := by
  decide +kernel

theorem witness_GetConfigReturnsTheRecordNamed :
    (∀ v ∈ [0, 1, 3, 4, 5, 8, 9, 255], takes State.reset .b (cmd 0x04 [v, 255]) 0x04 2
        ∧ byteAt (cmd 0x04 [v, 255]).payload 0 = v.toNat)
      ∧ (∀ n ∈ [0, 7, 8], takes State.reset .a (cmd 0x04 [2, n]) 0x04 2 ∧ byteAt (cmd 0x04 [2, n]).payload 1 = n.toNat)
      ∧ (∀ n ∈ [0, 7, 8], takes State.reset .a (cmd 0x04 [6, n]) 0x04 2 ∧ byteAt (cmd 0x04 [6, n]).payload 1 = n.toNat)
      ∧ ∀ n ∈ [0, 1, 2], takes State.reset .a (cmd 0x04 [7, n]) 0x04 2 ∧ byteAt (cmd 0x04 [7, n]).payload 1 = n.toNat := by
  decide +kernel

/-! ## Witnesses: setup records -/

/-- A SET_SCALE packet with an encoder step and a line pitch. -/
def scaleCmd (step pitch : Nat) : InPacket :=
  cmd 0x10 (le 4 step ++ le 4 pitch ++ [0, 0] ++ le 2 10 ++ le 2 5 ++ le 2 2000)

/-- A SET_PHASES packet with one entry used, an exposure and a spacing. -/
def phasesCmd (exposure spacing : Nat) : InPacket :=
  cmd 0x11 ([0x80, 0x01] ++ le 2 exposure ++ (List.replicate 7 [0x80, 0x01, 50, 0]).flatten ++ [0, 0] ++ le 2 spacing)

/-- A SET_LANE packet with a lane, flags and a column. -/
def laneCmd (lane flags : Byte) (column : Nat) : InPacket :=
  cmd 0x12 ([lane, flags] ++ le 2 0 ++ le 2 8192 ++ le 2 0 ++ le 2 8191 ++ le 2 column ++ [0, 0] ++ le 2 500)

/-- A SET_FRAMING packet with a nominal length and a tolerance. -/
def framingCmd (nominal tolerance : Nat) : InPacket := cmd 0x13 ([0, 0] ++ le 2 nominal ++ le 2 tolerance ++ le 2 0)

/-- A SET_LAYOUT packet with a tile width and planes in use. -/
def layoutCmd (tileWidth : Nat) (planes : Byte) : InPacket :=
  cmd 0x14 (le 2 8192 ++ le 2 8192 ++ le 2 tileWidth ++ le 2 256 ++ [planes, 0])

/-- A SET_ROUTE packet with a route, flags and a last column. -/
def routeCmd (route flags last : Byte) : InPacket := cmd 0x16 [route, flags, 1, 0, last, 1, 0, 0]

/-- A SET_PORT packet with a port, rest enable and a max segment. -/
def portCmd (port rest : Byte) (maxSegment : Nat) : InPacket :=
  cmd 0x17 ([port, rest] ++ le 2 maxSegment ++ le 4 10 ++ le 2 64)

/-- The reset state with route 0 enabled on port A. -/
def routed : State :=
  { State.reset with dle := { Dle.reset with routes := { Dle.reset.routes with e0 := { RouteRecord.default with enable := true } } } }

/-- The reset state with the widest tiles. -/
def wideTiles : State := { State.reset with layout := { LayoutRecord.default with tileWidth := 16384 } }

theorem witness_SetupCommandsRefuseBadFields :
    (takes State.reset .a (scaleCmd 99 10000) 0x10 16 ∧ readScale (scaleCmd 99 10000).payload = none
        ∧ takes State.reset .a (scaleCmd 10001 10000) 0x10 16
        ∧ (readScale (scaleCmd 10001 10000).payload).map (fun r => decide (r.pitch < r.step)) = some true)
      ∧ (takes State.reset .a (phasesCmd 0 100) 0x11 36 ∧ readPhases (phasesCmd 0 100).payload = none
        ∧ takes State.reset .a (phasesCmd 100 100) 0x11 36
        ∧ (readPhases (phasesCmd 100 100).payload).map (fun x => loopOk x.1 x.2.1 x.2.2) = some false)
      ∧ (takes State.reset .a (laneCmd 8 1 0) 0x12 16 ∧ readLane (laneCmd 8 1 0).payload = none
        ∧ takes State.reset .a (laneCmd 7 1 1) 0x12 16
        ∧ (readLane (laneCmd 7 1 1).payload).map
            (fun x => (x.2.enable, (arrive State.reset .a (laneCmd 7 1 1)).laneFits x.1 x.2)) = some (true, false))
      ∧ (takes State.reset .a (framingCmd 15 0) 0x13 8 ∧ readFraming (framingCmd 15 0).payload = none
        ∧ takes State.reset .a (framingCmd 16 16) 0x13 8
        ∧ (readFraming (framingCmd 16 16).payload).map (fun r => decide (r.nominal ≤ r.tolerance)) = some true)
      ∧ (takes State.reset .a (layoutCmd 255 1) 0x14 10 ∧ readLayout (layoutCmd 255 1).payload = none
        ∧ takes State.reset .a (layoutCmd 256 2) 0x14 10
        ∧ (readLayout (layoutCmd 256 2).payload).map (arrive State.reset .a (layoutCmd 256 2)).layoutFits = some false)
      ∧ (takes State.reset .a (cmd 0x15 [1, 0]) 0x15 2 ∧ readStore [1, 0] = none ∧ readStore [33, 0] = none
        ∧ (arrive State.reset .a (cmd 0x15 [1, 0])).slotsIn .held = 0)
      ∧ (takes State.reset .a (routeCmd 0 1 128) 0x16 8 ∧ readRoute (routeCmd 0 1 128).payload = none
        ∧ takes wideTiles .a (routeCmd 7 1 127) 0x16 8
        ∧ (readRoute (routeCmd 7 1 127).payload).map
            (fun x => (x.2.enable, decide ((wideTiles.ports.get x.2.port).record.maxSegment < wideTiles.layout.tileWidth + 16)))
              = some (true, true))
      ∧ (takes (inRun .running) .a (portCmd 2 0 1024) 0x17 10 ∧ takes routed .a (portCmd 2 0 1024) 0x17 10
        ∧ readPort (portCmd 2 0 1024).payload = none
        ∧ takes routed .a (portCmd 0 0 1039) 0x17 10
        ∧ (readPort (portCmd 0 0 1039).payload).map (fun x => (x.1, decide (x.2.maxSegment < routed.layout.tileWidth + 16)))
            = some (.a, true)
        ∧ (routed.dle.routes.get 0).port = .a ∧ (routed.dle.routes.get 0).enable = true)
      ∧ State.reset.rnc.runState = .config ∧ wideTiles.rnc.runState = .config ∧ routed.rnc.runState = .config := by
  decide +kernel

/-- MOVING, the stall timer started 10 ms before the clock's reading, less a number of 10 ns units. -/
def movingFor (less : Nat) : State :=
  { State.reset with now := 5000000, ptk := { State.reset.ptk with motion := .moving, stallTimer := some (4000000 + less) } }

theorem witness_SetScaleTakesEffect :
    (readScale (scaleCmd 10000 10000).payload).map (fun r => (decide (r.step ≤ r.pitch), r.stallMs)) = some (true, 10)
      ∧ (takes State.reset .a (scaleCmd 10000 10000) 0x10 16 ∧ State.reset.rnc.runState = .config
        ∧ State.reset.ptk.motion = .stalled)
      ∧ (takes (movingFor 1) .a (scaleCmd 10000 10000) 0x10 16 ∧ (movingFor 1).rnc.runState = .config
        ∧ (movingFor 1).ptk.motion = .moving ∧ (movingFor 1).ptk.stallTimer = some 4000001
        ∧ (movingFor 1).now - 4000001 < 10 * 100000)
      ∧ (takes (movingFor 0) .a (scaleCmd 10000 10000) 0x10 16 ∧ (movingFor 0).rnc.runState = .config
        ∧ (movingFor 0).ptk.motion = .moving ∧ (movingFor 0).ptk.stallTimer = some 4000000
        ∧ 10 * 100000 ≤ (movingFor 0).now - 4000000) := by
  decide +kernel

theorem witness_SetPhasesTakesEffect :
    takes State.reset .a (phasesCmd 99 100) 0x11 36
      ∧ (readPhases (phasesCmd 99 100).payload).map (fun x => loopOk x.1 x.2.1 x.2.2) = some true
      ∧ rotation.loop.first ≤ rotation.loop.last ∧ loopOk rotation.table rotation.loop 31 = true
      ∧ loopOk rotation.table { first := 6, last := 7 } 31 = true := by
  decide +kernel

theorem witness_SetLoopIsAppliedOrStaged :
    let s (r : RunState) := { inRun r with tru := rotation }
    (takes (s .config) .a (cmd 0x38 [1, 0]) 0x38 2 ∧ readLoop 1 0 = none ∧ readLoop 0 8 = none)
      ∧ (takes (s .config) .a (cmd 0x38 [0, 2]) 0x38 2 ∧ readLoop 0 2 = some ⟨0, 2⟩ ∧ loopOk rotation.table ⟨0, 2⟩ 40 = false)
      ∧ (takes (s .running) .a (cmd 0x38 [4, 7]) 0x38 2 ∧ readLoop 4 7 = some ⟨4, 7⟩ ∧ loopOk rotation.table ⟨4, 7⟩ 40 = true
          ∧ planeMask (planesOf rotation.table ⟨4, 7⟩) = rotation.planeSet)
      ∧ (takes (s .draining) .a (cmd 0x38 [7, 7]) 0x38 2 ∧ readLoop 7 7 = some ⟨7, 7⟩ ∧ loopOk rotation.table ⟨7, 7⟩ 40 = true
          ∧ planeMask (planesOf rotation.table ⟨7, 7⟩) ≠ rotation.planeSet) := by
  decide +kernel

theorem witness_SetLaneTakesEffect :
    (takes State.reset .a (laneCmd 7 1 0) 0x12 16
        ∧ (readLane (laneCmd 7 1 0).payload).map (fun x => (x.1, x.2.enable, State.reset.laneFits x.1 x.2)) = some (7, true, true))
      ∧ (takes State.reset .a (laneCmd 0 0 32767) 0x12 16
        ∧ (readLane (laneCmd 0 0 32767).payload).map (fun x => (x.1, x.2.enable)) = some (0, false)) := by
  decide +kernel

theorem witness_FramingLayoutAndStoreAreReplaced :
    (takes State.reset .a (framingCmd 16 15) 0x13 8
        ∧ (readFraming (framingCmd 16 15).payload).map (fun r => decide (r.tolerance < r.nominal)) = some true)
      ∧ (takes State.reset .a (layoutCmd 256 15) 0x14 10 ∧ (readLayout (layoutCmd 256 15).payload).map State.reset.layoutFits = some true)
      ∧ (takes State.reset .a (cmd 0x15 [32, 0]) 0x15 2 ∧ readStore [32, 0] = some { count := 32, policy := .dropNew }
        ∧ readStore [2, 1] = some { count := 2, policy := .dropOldest } ∧ State.reset.slotsIn .held = 0) := by
  decide +kernel

theorem witness_RoutesAndLeadsAreReplaced :
    (takes State.reset .a (routeCmd 7 1 127) 0x16 8
        ∧ (readRoute (routeCmd 7 1 127).payload).map (fun x => (x.1, x.2.enable, x.2.port)) = some (7, true, .a)
        ∧ State.reset.layout.tileWidth + 16 ≤ (State.reset.ports.get .a).record.maxSegment)
      ∧ (takes State.reset .a (cmd 0x36 [7, 127]) 0x36 2 ∧ byteAt [7, 127] 0 = 7 ∧ byteAt [7, 127] 1 ≤ 127)
      ∧ (takes State.reset .b (cmd 0x36 [7, 127]) 0x36 2 ∧ (State.reset.dle.routes.get 7).port = .a)
      ∧ (takes State.reset .a (cmd 0x36 [8, 0]) 0x36 2 ∧ 8 ≤ byteAt [8, 0] 0 ∧ 128 ≤ byteAt [0, 128] 1) := by
  decide +kernel

/-- Port A UP, its idle timer started 10 µs ago less a number of 10 ns units, and otherwise as named. -/
def idleFor (less : Nat) (f : HostPort → HostPort) : State :=
  { State.reset.setPort .a fun h => f { h with link := .up, idleTimer := some less } with now := 1000 }

theorem witness_SetPortIsInForceOrStaged :
    let c (rest : Byte) := portCmd 0 rest 1040
    let inForce (s : State) (rest : Byte) : State := (State.took s .a []).setPort .a fun h =>
      { h with record := { maxSegment := 1040, restEnable := rest = 1, restDelay := 10, wakeLead := 64 }, staged := none }
    let rests := some ({ source := .rest, packet := { kind := 0x86, stream := 0x80, tag := 0, payload := [] } } : Tx)
    (∀ rest ∈ [0, 1], takes (idleFor 0 id) .a (c rest) 0x17 10
        ∧ readPort (c rest).payload = some (.a, { maxSegment := 1040, restEnable := rest = 1, restDelay := 10, wakeLead := 64 }))
      ∧ State.reset.layout.tileWidth + 16 ≤ 1040 ∧ (∀ i, (routed.dle.routes.get i).port = .b → (routed.dle.routes.get i).enable = false)
      ∧ ((idleFor 0 id).ports.a.tile = none ∧ 10 * 100 ≤ (idleFor 0 id).now - 0 ∧ (inForce (idleFor 0 id) 1).mayRest .a)
      ∧ (idleFor 1 id).now - 1 < 10 * 100
      ∧ ¬ (inForce (idleFor 0 fun h => { h with notices := [restPacket] }) 1).mayRest .a
      ∧ (idleFor 0 id).ports.a.link ≠ .resting
      ∧ (idleFor 0 fun h => { h with tx := rests }).ports.a.tx = rests
      ∧ ((idleFor 0 fun h => { h with link := .resting }).ports.get .a).link = .resting
      ∧ ((idleFor 0 fun h => { h with tile := some .reread }).ports.get .a).tile ≠ none := by
  decide +kernel

theorem witness_NoticeMasksAreSetAndCleared :
    takes (inRun .running) .a (cmd 0x18 [255, 255]) 0x18 2 ∧ takes (inRun .draining) .b (cmd 0x37 [1, 128]) 0x37 2 := by
  decide +kernel

/-- A state that raises sources: sources enabled, port A's link, and notices waiting there. -/
def noticing (enable : BitVec 16) (link : LinkState) (n : Nat) : State :=
  State.setPort { inRun .running with ntu := { Ntu.reset with enable := enable } } .a fun h =>
    { h with link := link, notices := List.replicate n restPacket }

/-- O21 on a source raised: its flag set; clear and enabled with room on port A; and not enabled, DOWN, or 16 waiting. -/
theorem witness_NoticeMasksAreSetAndCleared_raises :
    maskHas (State.raise (inRun .running) .evicted).ntu.pending .evicted = true
      ∧ (maskHas (noticing 0xFFFF .resting 15).ntu.pending .evicted = false
        ∧ maskHas (noticing 0xFFFF .resting 15).ntu.enable .evicted = true ∧ (noticing 0xFFFF .resting 15).ports.a.link ≠ .down
        ∧ (noticing 0xFFFF .resting 15).ports.a.notices.length < 16)
      ∧ maskHas (noticing 0 .up 0).ntu.enable .evicted = false ∧ (noticing 0xFFFF .down 0).ports.a.link = .down
      ∧ 16 ≤ (noticing 0xFFFF .up 16).ports.a.notices.length := by
  decide +kernel

theorem test_raised_notices :
    let counts (s : State) := ((s.raise .evicted (frame := some 12)).ports.a.notices.length,
      (((s.raise .evicted (frame := some 12)).raise .evicted).ports.a.notices.length))
    counts (noticing 0xFFFF .resting 15) = (16, 16) ∧ counts (noticing 0xFFFF .up 16) = (16, 16)
      ∧ counts (noticing 0xFFFF .down 0) = (0, 0) ∧ counts (noticing 0 .up 3) = (3, 3) := by
  decide +kernel

/-! ## Witnesses: run control -/

/-- The reset state with lane 0 enabled and READY: a consistent setup. -/
def consistent : State :=
  State.reset.setLane 0 fun n => { n with record := { n.record with enable := true }, state := .ready, linkUp := true }

theorem consistent_setup : consistent.setupConsistent :=
  ⟨⟨0, by decide +kernel⟩, by decide +kernel, by decide +kernel, by decide +kernel, by decide +kernel, by decide +kernel⟩

theorem witness_RunStartBeginsARun :
    takes consistent .a (cmd 0x20 []) 0x20 0 ∧ (arrive consistent .a (cmd 0x20 [])).setupConsistent
      ∧ takes State.reset .a (cmd 0x20 []) 0x20 0 ∧ ¬ (arrive State.reset .a (cmd 0x20 [])).setupConsistent := by
  refine ⟨by decide +kernel, ?_, by decide +kernel, ?_⟩
  · exact ⟨⟨0, by decide +kernel⟩, by decide +kernel, by decide +kernel, by decide +kernel, by decide +kernel, by decide +kernel⟩
  · rintro ⟨⟨l, h⟩, -⟩
    revert l
    decide +kernel

/-- The NOTICE of a RUN_START taken with H at 500 carries H = 0, in bytes 4 to 9 (12.4; log entry 43). -/
theorem test_run_state_notice :
    let s := { consistent with ptk := { consistent.ptk with tick := 500, high := 500 }, ntu := { Ntu.reset with enable := 0xFFFF } }
    ((s.setPort .a fun h => { h with link := .up }).startRun.ports.a.notices.map fun k => (byteAt k.payload 0, bytesAt k.payload 4 6))
      = [(Source.runState.number, leSigned 6 0)] := by
  decide +kernel

/-- In DRAINING with the close at stop made and slots in the states named. -/
def draining (made : Bool) (states : List SlotState) : State :=
  { inRun .draining with
    rnc := { Rnc.reset with runState := .draining, closeAtStopMade := made },
    slm := { State.reset.slm with slots := states.map fun x => { Slot.empty with state := x } } }

theorem witness_RunsDrainAndEnd :
    takes (inRun .running) .a (cmd 0x21 []) 0x21 0 ∧ (inRun .running).rnc.runState = .running
      ∧ ((draining true [.free, .held]).rnc.runState = .draining ∧ (draining true [.free, .held]).rnc.closeAtStopMade = true
          ∧ ∀ x ∈ (draining true [.free, .held]).slm.slots, x.state = .free ∨ x.state = .held)
      ∧ ¬ (∀ x ∈ (draining true [.free, .closed]).slm.slots, x.state = .free ∨ x.state = .held)
      ∧ (draining false [.free]).rnc.closeAtStopMade ≠ true ∧ State.reset.pwrOk = true := by
  decide +kernel

/-- O23 on a port that is DOWN with a PENDING record on its route, as RUN_STOP is taken from its buffer. -/
theorem witness_RunsDrainAndEnd_down :
    let s := (tracked 2 [.closed] 1004035).setPort .a fun h => { h with inbound := [cmd 0x21 []] }
    s.mayTake .a (cmd 0x21 []) [] ∧ s.rnc.runState = .running ∧ (s.ports.get .a).link = .down
      ∧ (s.dle.records.get 0).map Delivery.state = [.pending] ∧ framesAgree s := by
  decide +kernel

/-- A command reset due, with a packet of port B in transmission and a tile in progress there. -/
def resetWith (x : TxSource) : State :=
  { (sending State.reset .b x).setPort .b fun h => { h with tile := some (.route 0) } with
    rnc := { Rnc.reset with resetPending := true, resetDue := true } }

theorem witness_ResetIsAnsweredAndThenTaken :
    takes (inRun .running) .a (cmd 0x22 []) 0x22 0 ∧ State.reset.pwrOk = true ∧ State.reset.rnc.resetDue = false
      ∧ ({ State.reset with rnc := { Rnc.reset with resetPending := true, resetDue := true } } : State).rnc.resetDue = true
      ∧ (∀ x ∈ [TxSource.segment 0 1 2 false, .reread 1 2 false, .tileAbort 0 1], x.ofTile = true)
      ∧ (∀ x ∈ [TxSource.reply, .notice, .frameOpen 0 1, .frameEnd 0 1 true, .rest], x.ofTile = false)
      ∧ ∀ x ∈ [TxSource.segment 0 1 2 false, .rest],
          (resetWith x).rnc.resetDue = true ∧ (resetWith x).ports.b.tx = some { source := x, packet := restPacket }
            ∧ ((after .commandReset (resetWith x)).ports.get .b).link = .up := by
  decide +kernel

/-- R167: with a segment of port B in transmission at the reset, its tile stays in progress to the segment's end, so that a SET_PORT for
port B taken meanwhile is staged (R162); nothing follows the segment. A REST in transmission there owes a wake. -/
theorem test_reset_with_a_packet_in_transmission :
    let s := after .commandReset (resetWith (.segment 0 1 2 false))
    let t := after (.setPort .a) (arrive s .a (portCmd 1 1 16384))
    let u := after (.tileSegmentSent .b) t
    s.ports.b.tile = some (.route 0) ∧ t.ports.b.staged.isSome = true ∧ u.ports.b.tile = none ∧ u.ports.b.tx = none
      ∧ (after (.stagedPortRecord .b) u).ports.b.record.restEnable = true
      ∧ (after .commandReset (resetWith (.frameEnd 0 1 true))).ports.b.tile = none
      ∧ ((after (.restSent .b) (after .commandReset (resetWith .rest))).ports.b).link = .waking := by
  decide +kernel

theorem witness_PowerUpTakesTheResetValues :
    (State.powerUpValues [] 0 [] false true true).pwrOk = false ∧ Instr.stall ≠ .powerUp false false ∧ Instr.stall ≠ .pwrOkLow := by
  decide +kernel

/-! ## Witnesses: delivery control -/

theorem witness_PauseAndResumeWriteThePausedMask :
    takes State.reset .a (cmd 0x30 [0xFF]) 0x30 1 ∧ takes State.reset .b (cmd 0x30 [0x80]) 0x30 1
      ∧ takes State.reset .a (cmd 0x31 [0]) 0x31 1 ∧ takes State.reset .b (cmd 0x31 [0x01]) 0x31 1
      ∧ ((stored .closed .pending).recordOf 0 1).map Delivery.state = some .pending
      ∧ (stored .closed .pending).ports.a.sendingOpen 0 1 = false
      ∧ (sending (stored .closed .pending) .a (.frameOpen 0 1)).ports.a.sendingOpen 0 1 = true := by
  decide +kernel

/-- The mixed mask of the spec's worked case: frame 5 CLOSED with route 0 PENDING, route 1 OPENED and route 2 DONE. -/
def mixed (retain : Bool) (routes : List (Fin 8)) : State :=
  let s := (stored .closed .pending).setSlot 0 fun x => { x with outstanding := routes, retain := retain }
  { s with dle := { s.dle with records :=
    { s.dle.records with
      e1 := if 1 ∈ routes then [{ Delivery.fresh 0 1 with state := .opened }] else [],
      e2 := [{ Delivery.fresh 0 1 with state := .done }] } } }

theorem witness_RevokeEndsOrFlagsTheRecords :
    let c (mask : Byte) := cmd 0x32 (le 4 5 ++ [mask])
    (takes (stored .free .done) .a (c 1) 0x32 5 ∧ (arrive (stored .free .done) .a (c 1)).lookupCapture (u32 (c 1).payload 0) = none)
      ∧ (∀ s ∈ [mixed false [0, 1], mixed false [0], mixed true [0]], takes s .a (c 7) 0x32 5
        ∧ (arrive s .a (c 7)).lookupCapture (u32 (c 7).payload 0) = some 0
        ∧ (arrive s .a (c 7)).revokeDrops .a (c 7) 1 0 = true ∧ (arrive s .a (c 7)).revokeDrops .a (c 7) 1 2 = false)
      ∧ ((mixed false [0, 1]).slot 0).outstanding.filter (fun r => !(mixed false [0, 1]).revokeDrops .a (c 7) 1 r) = [1]
      ∧ ((mixed false [0]).slot 0).outstanding.filter (fun r => !(mixed false [0]).revokeDrops .a (c 7) 1 r) = []
      ∧ ((mixed false [0]).slot 0).state = .closed ∧ ((mixed true [0]).slot 0).retain = true
      ∧ (sending (mixed false [0, 1]) .a (.frameOpen 0 1)).revokeDrops .a (c 7) 1 0 = false
      ∧ (sending (mixed false [0, 1]) .a (.frameEnd 1 1 false)).ports.a.sendingEnd 1 1 = true
      ∧ ¬ (mixed false [0, 1]).revokes .b (c 7) 1 := by
  decide +kernel

theorem mixed_framesOk : (mixed false [0, 1]).framesOk ∧ (mixed false [0]).framesOk ∧ (mixed true [0]).framesOk :=
  ⟨framesOk_of (by decide +kernel), framesOk_of (by decide +kernel), framesOk_of (by decide +kernel)⟩

/-- Four HELD slots and a CLOSED one that holds frame 5. -/
def fourHeld : State :=
  { stored .closed .done with slm := { (stored .closed .done).slm with
    slots := (stored .closed .done).slm.slots ++ List.replicate 4 { Slot.empty with state := .held, frame := 9, alloc := 1 } } }

theorem witness_RetainAndReleaseFollowTheirTables :
    let c := cmd 0x33 (le 4 5)
    let r := cmd 0x34 (le 4 5)
    let kept (s : State) : Prop := takes s .a c 0x33 4 ∧ (arrive s .a c).lookupCapture (u32 c.payload 0) = some 0
    let given (s : State) : Prop := takes s .b r 0x34 4 ∧ (arrive s .b r).lookupHeld (u32 r.payload 0) = some 0
    let closed (outstanding : List (Fin 8)) (rereads : Nat) : State :=
      (stored .closed .done).setSlot 0 fun x => { x with outstanding := outstanding, pendingRereads := rereads }
    let held (rereads : Nat) : State := (stored .held .done).setSlot 0 fun x => { x with pendingRereads := rereads }
    (takes State.reset .a c 0x33 4 ∧ (arrive State.reset .a c).lookupCapture (u32 c.payload 0) = none)
      ∧ (kept (stored .held .done) ∧ ((stored .held .done).slot 0).state = .held)
      ∧ (kept (stored .closed .done) ∧ ((stored .closed .done).slot 0).state ≠ .held ∧ ((stored .closed .done).slot 0).retain = false
        ∧ (stored .closed .done).slm.slots.countP (fun x => x.retain) + (stored .closed .done).slm.slots.countP (fun x => x.state = .held) < 4)
      ∧ (kept fourHeld ∧ (fourHeld.slot 0).state ≠ .held ∧ (fourHeld.slot 0).retain = false
        ∧ 4 ≤ fourHeld.slm.slots.countP (fun x => x.retain) + fourHeld.slm.slots.countP (fun x => x.state = .held))
      ∧ (takes State.reset .b r 0x34 4 ∧ (arrive State.reset .b r).lookupHeld (u32 r.payload 0) = none)
      ∧ (given (stored .opened .done) ∧ ((stored .opened .done).slot 0).state = .opened)
      ∧ (given (closed [0] 0) ∧ ((closed [0] 0).slot 0).state = .closed ∧ ((closed [0] 0).slot 0).outstanding ≠ [])
      ∧ (given (closed [] 1) ∧ ((closed [] 1).slot 0).state = .closed ∧ ((closed [] 1).slot 0).pendingRereads ≠ 0)
      ∧ (given (closed [] 0) ∧ ((closed [] 0).slot 0).outstanding = [] ∧ ((closed [] 0).slot 0).pendingRereads = 0)
      ∧ (given (held 0) ∧ ((held 0).slot 0).state = .held ∧ ((held 0).slot 0).pendingRereads = 0)
      ∧ (given (held 1) ∧ ((held 1).slot 0).state = .held ∧ 0 < ((held 1).slot 0).pendingRereads) := by
  decide +kernel

theorem witness_RereadQueuesATile :
    let c (layer col : Byte) (band : Nat) := cmd 0x35 (le 4 5 ++ [layer, col] ++ le 2 band)
    let s := stored .held .done
    let releasing := s.setSlot 0 fun x => { x with releasePending := true }
    let queued (n : Nat) : State := s.setRereads .b fun _ => List.replicate n ⟨0, 1, 5, 0, 0, 0, 0, 4, 0, none, false⟩
    (takes State.reset .a (c 0 0 0) 0x35 8 ∧ (arrive State.reset .a (c 0 0 0)).lookupHeld 5 = none)
      ∧ (takes s .a (c 8 0 0) 0x35 8 ∧ takes s .a (c 1 0 0) 0x35 8 ∧ takes s .a (c 0 2 0) 0x35 8 ∧ takes s .a (c 0 0 2) 0x35 8
        ∧ s.lookupHeld 5 = some 0 ∧ (s.slot 0).geometry.columns .top = 2 ∧ (s.slot 0).rowCount = some 8
        ∧ (s.slot 0).geometry.bands 8 = 2)
      ∧ (takes (stored .closed .done) .a (c 0 0 0) 0x35 8 ∧ (stored .closed .done).lookupHeld 5 = some 0
        ∧ ((stored .closed .done).slot 0).retain = false)
      ∧ (takes releasing .a (c 0 0 0) 0x35 8 ∧ releasing.lookupHeld 5 = some 0 ∧ (releasing.slot 0).releasePending = true)
      ∧ (takes (queued 8) .b (c 0 1 1) 0x35 8 ∧ (queued 8).lookupHeld 5 = some 0 ∧ ((queued 8).dle.rereads.get .b).length = 8)
      ∧ (takes (queued 7) .b (c 0 1 1) 0x35 8 ∧ (queued 7).lookupHeld 5 = some 0 ∧ ((queued 7).dle.rereads.get .b).length = 7
        ∧ ((queued 7).slot 0).state = .held ∧ ((queued 7).slot 0).releasePending = false
        ∧ ((queued 7).slot 0).geometry.layers = [0]) := by
  decide +kernel

/-! ## Witnesses: web position -/

theorem witness_CountsMoveTheDecoderAndTheMotion :
    (web 0 0 0).pwrOk = true ∧ (web 0 0 0).ptk.motion = .stalled ∧ (movingFor 0).ptk.motion = .moving := by decide +kernel

theorem witness_ForwardCountsAccumulateAndTick :
    (web 72499 0 0).ptk.countForward .encA = true ∧ (web 72499 0 0).ptk.acc + 12500 < 85000 ∧ 85000 ≤ (web 72500 0 0).ptk.acc + 12500
      ∧ 140737488355327 < (web 84999 140737488355327 140737488355327).ptk.tick + 1
      ∧ (web 84999 140737488355326 140737488355326).ptk.tick + 1 ≤ 140737488355327
      ∧ (web 72500 0 0).ptk.high < (web 72500 0 0).ptk.tick + 1 ∧ ¬ (web 72500 0 1).ptk.high < (web 72500 0 1).ptk.tick + 1
      ∧ (after (.count .encA) (web 72500 0 1)).ptk.high = (web 72500 0 1).ptk.high := by
  decide +kernel

/-- Two frames open with H at 1,000,100 and T one line of debt short of the reverse limit; the stall-close timer running. -/
def backing : State :=
  let s := tracked 2 [.closed] 1000100
  { s with
    ptk := { s.ptk with tick := 998101, stallCloseTimer := some 0 },
    frt := { s.frt with triggersEnded := true } }

/-- The short row counts there, by the lane of D 36: 65 rows of the older frame and none of the newest. -/
theorem backing_shortRows : backing.isShortRows backing.ptk.high older 65 ∧ backing.isShortRows backing.ptk.high newest (-3935) :=
  ⟨⟨⟨0, by decide +kernel⟩, by decide +kernel, fun e h => by cases h; decide, Or.inl ⟨1, by decide +kernel, by decide +kernel⟩⟩,
    ⟨⟨0, by decide +kernel⟩, by decide +kernel, fun e h => by (cases h), Or.inl ⟨1, by decide +kernel, by decide +kernel⟩⟩⟩

theorem backing_framesOk : backing.framesOk ∧ backing.frt.openList = [older, newest] := by decide +kernel

/-- The row counts of its open list in order: one frame is closed short and one is dropped EMPTY. -/
theorem backing_rows : List.Forall₂ (backing.isShortRows backing.ptk.high) backing.frt.openList [65, -3935] := by
  rw [backing_framesOk.2]
  exact .cons backing_shortRows.1 (.cons backing_shortRows.2 .nil)

theorem test_short_closes :
    let rows (i : Instr) (s : State) := (after i s).slm.slots.map fun x => (x.state, x.rowCount, x.closeReason)
    let s := { backing with rnc := { Rnc.reset with runState := .draining } }
    let gone := (SlotState.free, (none : Option Nat), (none : Option CloseReason))
    rows (.count .encB) backing = [(.closed, some 65, some .shortRewind), gone, (.closed, none, none)]
      ∧ rows .stallCloseExpiry backing = [(.closed, some 65, some .shortStall), gone, (.closed, none, none)]
      ∧ rows .closeAtStop s = [(.closed, some 65, some .shortStop), gone, (.closed, none, none)]
      ∧ ∀ t ∈ [after (.count .encB) backing, after .stallCloseExpiry backing, after .closeAtStop s],
          (t.ntu.counters.frames.short, t.ntu.counters.frames.droppedEmpty) = (1, 1)
            ∧ maskHas t.ntu.pending .frameShort ∧ maskHas t.ntu.pending .frameDropped := by
  decide +kernel

theorem witness_ReverseCountsBorrowAndRewind :
    (web 12500 0 0).ptk.countForward .encB = false ∧ 12500 ≤ (web 12500 0 0).ptk.acc ∧ (web 12499 0 0).ptk.acc < 12500
      ∧ (web 0 (-140737488355328) 0).ptk.tick - 1 < -140737488355328 ∧ -140737488355328 ≤ (web 0 (-140737488355327) 0).ptk.tick - 1
      ∧ (web 0 9 10).ptk.high - ((web 0 9 10).ptk.tick - 1) < (web 0 9 10).ptk.scale.reverseLimit
      ∧ ((web 0 8 10).ptk.scale.reverseLimit : Int) ≤ (web 0 8 10).ptk.high - ((web 0 8 10).ptk.tick - 1)
      ∧ (web 0 8 10).ptk.scale.reverseLimit ≠ 0
      ∧ backing.ptk.countForward .encB = false ∧ backing.ptk.acc < backing.ptk.scale.step
      ∧ (backing.ptk.scale.reverseLimit : Int) ≤ backing.ptk.high - (backing.ptk.tick - 1) ∧ backing.rnc.runState ≠ .config := by
  decide +kernel

theorem witness_EncoderErrorsAreOnlyCounted : (web 0 0 0).pwrOk = true := by decide +kernel

theorem witness_IndexEdgesAreCountedAndHeld :
    State.reset.pwrOk = true ∧ false = State.reset.ptk.scale.indexFalling ∧ true ≠ State.reset.ptk.scale.indexFalling
      ∧ (inRun .running).rnc.runState ≠ .config := by
  decide +kernel

theorem witness_StallsStopTheWebAndCloseFrames :
    (movingFor 0).ptk.motion = .moving ∧ (movingFor 0).ptk.stallTimer = some 4000000 ∧ State.reset.ptk.motion = .stalled
      ∧ State.reset.ptk.stallCloseTimer = some 0 ∧ State.reset.frt.state = .seeking ∧ State.reset.frt.openList = []
      ∧ backing.ptk.motion = .stalled ∧ backing.ptk.stallCloseTimer = some 0 ∧ backing.rnc.runState ≠ .config
      ∧ backing.frt.state ≠ .seeking := by
  decide +kernel

/-! ## Witnesses: triggers and framing -/

/-- Entry 1 of the first group, of plane 1, to be issued for tick 1,000,100, with frame 300 open and lane 1 in a state with n records. -/
def marking (x : LaneState) (n : Nat) : State :=
  State.setLane
    { tracked 1 [] 1000100 with tru := { rotation with
      group := some { tick := 1000100, time := 0, entries := [0, 1], issued := 1, pointerSet := false } } } 1 fun y =>
    { y with state := x, queue := ((waiting n).lanes.get 3).queue, nextTag := 900 + n }

/-- The cause and first row of frame 300's fill runs on lane 1 and a plane. -/
def filled (s : State) (k : Fin 4) : List (FillCause × Nat) :=
  ((s.slot 0).fillRuns.filter fun e => e.lane = 1 ∧ e.plane = k).map fun e => (e.cause, e.first)

theorem test_entry_marks :
    filled (after .entryIssue (marking .down 0)) 1 = [(.laneDown, 64)] ∧ filled (after .entryIssue (marking .active 64)) 1 = [(.behind, 64)]
      ∧ filled (after .entryIssue (marking .rejoin 63)) 1 = [(.rejoin, 64)] ∧ filled (after .entryIssue (marking .active 63)) 1 = [] := by
  decide +kernel

theorem witness_EntriesAreIssuedToTheLanes :
    (∀ x ∈ [LaneState.active, .rejoin, .down, .ready, .disabled], ∀ n ∈ [0, 63, 64],
        (marking x n).pwrOk = true
          ∧ (marking x n).tru.group = some { tick := 1000100, time := 0, entries := [0, 1], issued := 1, pointerSet := false }
          ∧ [(0 : Fin 8), 1][1]? = some 1 ∧ ((marking x n).lanes.get 1).state = x ∧ ((marking x n).lanes.get 1).queue.length = n
          ∧ (marking x n).keeper (1000100 - 36) = some 0 ∧ ((marking x n).slot 0).markOf 1 1 64 = .unresolved) := by
  decide +kernel

theorem test_overspeed_marks :
    let busy (x : LaneState) := (marking x 0).decideTick 1000101
    (∀ k ∈ [0, 1], filled (busy .active) k = [(.overspeed, 65)] ∧ filled (busy .rejoin) k = [(.rejoin, 65)]
        ∧ filled (busy .down) k = [(.laneDown, 65)])
      ∧ filled (busy .active) 2 = [] ∧ (busy .active).tru.skipped = 1 := by
  decide +kernel

theorem witness_TriggersFinishAndHoldsClear :
    (marking .active 0).tru.pulseEnd = none
      ∧ ({ State.reset with tru := { Tru.reset with pulseEnd := some 30 } } : State).tru.pulseEnd = some 30
      ∧ (grouped 0).tru.group = some { tick := 2001, time := 0, entries := [0, 1], issued := 2, pointerSet := false }
      ∧ [(0 : Fin 8), 1].length ≤ 2 ∧ 1 < [(0 : Fin 8), 1].length ∧ (inRun .draining).rnc.runState = .draining
      ∧ (inRun .draining).tru.group = none ∧ (inRun .running).rnc.runState ≠ .draining
      ∧ ({ consistent with frt := { Frt.reset with rewindHold := true } } : State).frt.rewindHold = true
      ∧ consistent.lanesSettled ∧ consistent.frt.rewindHold ≠ true := by
  decide +kernel

theorem witness_CloseAtStopEmptiesTheOpenList :
    (∀ s ∈ [backing, tracked 2 [.closed] 1004035],
        let d : State := { s with
          rnc := { Rnc.reset with runState := .draining }, frt := { s.frt with triggersEnded := true, stopTick := some 0 } }
        d.rnc.runState = .draining ∧ d.frt.triggersEnded = true ∧ d.lanesSettled ∧ d.rnc.closeAtStopMade = false
          ∧ d.frt.openList = [older, newest])
      ∧ ¬ (draining true []).rnc.closeAtStopMade = false ∧ State.reset.frt.openList = [] := by
  decide +kernel

/-- O38 on the counts: the frames of the two states, one passing the close test and one with no row. -/
theorem witness_CloseAtStopEmptiesTheOpenList_counts :
    let s := tracked 2 [.closed] 1004035
    List.Forall₂ (fun f e => e = none ∧ s.passesClose s.ptk.high f
        ∨ ∃ r, e = some r ∧ ¬ s.passesClose s.ptk.high f ∧ s.isShortRows s.ptk.high f r) s.frt.openList [none, some 0] := by
  have h : (tracked 2 [.closed] 1004035).frt.openList = [older, newest] := by decide +kernel
  intro s
  rw [h]
  refine .cons (.inl ⟨rfl, older_passes⟩) (.cons (.inr ⟨0, rfl, newest_fails _ _, ⟨0, by decide +kernel⟩, by decide +kernel, ?_, ?_⟩) .nil)
  · intro e h
    cases h
  · exact .inl ⟨1, by decide +kernel, by decide +kernel⟩

/-- The state that a boundary at a tick finds, under an overflow policy. -/
def bounded (k : Nat) (states : List SlotState) (policy : OverflowPolicy) (tick : Int) : State :=
  let s := tracked k states (tick - 1)
  { s with slm := { s.slm with record := { s.slm.record with policy := policy } } }

/-- What a boundary at a tick finds once the newest frame is bounded and the close test made. -/
def tested (s : State) (tick : Int) : State := (s.boundNewest tick).closeTest (tick - 1)

theorem bounded_framesOk : (bounded 2 [.closed, .free] .dropOldest 1004036).framesOk := by decide +kernel

theorem test_boundary_outcomes :
    let t (s : State) (tick : Int) : State := s.takeBoundary tick .fixed
    let counts (s : State) := (s.ntu.counters.frames.opened, s.ntu.counters.frames.droppedOpenLimit,
      s.ntu.counters.frames.droppedNoSlot, s.ntu.counters.frames.evicted)
    counts (t (bounded 4 [.free] .dropOldest 1000101) 1000101) = (0, 1, 0, 0)
      ∧ counts (t (bounded 2 [.closed, .free] .dropOldest 1004036) 1004036) = (1, 0, 0, 0)
      ∧ counts (t (bounded 2 [.closed, .held] .dropNew 1000101) 1000101) = (0, 0, 1, 0)
      ∧ counts (t (bounded 2 [.held] .dropOldest 1000101) 1000101) = (0, 0, 1, 0)
      ∧ counts (t (bounded 2 [.closed, .closed] .dropOldest 1000101) 1000101) = (1, 0, 0, 1) := by
  decide +kernel

/-- The slot of the lower allocation number can be evicted, and the other one has a higher number. -/
theorem evictable_slot :
    let u := tested (bounded 2 [.closed, .closed] .dropOldest 1000101) 1000101
    u.mayEvict 2 ∧ ∀ j < u.slm.slots.length, u.mayEvict j → j ≠ 2 → (u.slot 2).alloc < (u.slot j).alloc := by
  refine ⟨⟨by decide +kernel, rfl, rfl, by decide +kernel, fun p r k => ?_⟩, fun j h hj hn => ?_⟩
  · have h : ((tested (bounded 2 [.closed, .closed] .dropOldest 1000101) 1000101).ports.get p).tx = none := by
      cases p <;> decide +kernel
    rw [h]
    exact nofun
  · exact (by decide +kernel : ∀ j < (tested (bounded 2 [.closed, .closed] .dropOldest 1000101) 1000101).slm.slots.length,
      ((tested (bounded 2 [.closed, .closed] .dropOldest 1000101) 1000101).slot j).state = .closed → j ≠ 2 →
        ((tested (bounded 2 [.closed, .closed] .dropOldest 1000101) 1000101).slot 2).alloc
          < ((tested (bounded 2 [.closed, .closed] .dropOldest 1000101) 1000101).slot j).alloc) j h hj.1 hn

theorem witness_BoundariesOpenTheNextFrame :
    let noneFree (s : State) : Prop := ∀ x ∈ s.slm.slots, x.state ≠ .free
    ({ inRun .running with tru := { rotation with staged := some ⟨4, 7⟩ } } : State).tru.staged.isSome
      ∧ (inRun .running).frt.state = .seeking ∧ (indexed 40).state = .tracking ∧ rotation.staged = none
      ∧ 4 ≤ ((bounded 4 [.free] .dropOldest 1000101).frt.boundedAt 1000101).length
      ∧ ((bounded 2 [.closed, .free] .dropOldest 1004036).frt.boundedAt 1004036)
          = [older, { newest with stop := some 1004036 }]
      ∧ ((tested (bounded 2 [.closed, .free] .dropOldest 1004036) 1004036).slot 3).state = .free
      ∧ (∀ j < 3, ((tested (bounded 2 [.closed, .free] .dropOldest 1004036) 1004036).slot j).state ≠ .free)
      ∧ noneFree (tested (bounded 2 [.closed, .held] .dropNew 1000101) 1000101)
      ∧ noneFree (tested (bounded 2 [.held] .dropOldest 1000101) 1000101)
      ∧ noneFree (tested (bounded 2 [.closed, .closed] .dropOldest 1000101) 1000101) := by
  decide +kernel

/-- O39 on the tests: no slot that may be evicted, and a frame that passes the close test before one that fails it. -/
theorem witness_BoundariesOpenTheNextFrame_tests :
    (∀ i, i < 3 → ¬ (tested (bounded 2 [.held] .dropOldest 1000101) 1000101).mayEvict i)
      ∧ (∀ f ∈ [older], (bounded 2 [.closed, .free] .dropOldest 1004036).passesClose 1004035 f)
      ∧ ¬ (bounded 2 [.closed, .free] .dropOldest 1004036).passesClose 1004035 { newest with stop := some 1004036 } := by
  have held : ∀ i < 3, ((tested (bounded 2 [.held] .dropOldest 1000101) 1000101).slot i).state ≠ .closed := by decide +kernel
  refine ⟨fun i h hi => held i h hi.1, fun f hf => ?_, ?_⟩
  · obtain rfl : f = older := by simpa using hf
    exact ⟨1004000, rfl, by decide +kernel⟩
  · rintro ⟨e, he, h⟩
    cases he
    exact absurd (h 1) (by decide +kernel)

/-- What R90, R109 and R116 set up in an opened slot: the geometry of the records in force, and a count of 0 for each tile column. -/
theorem test_opened_slot :
    let x := ((bounded 2 [.closed, .free] .dropOldest 1004036).takeBoundary 1004036 .fixed).slot 3
    x.geometry.layers = [0, 1, 4, 5]
      ∧ x.geometry.lanes = [⟨0, .top, 0, 8063, 0⟩, ⟨1, .top, 8064, 16127, 0⟩, ⟨4, .bottom, 0, 4095, 0⟩]
      ∧ (x.ready.top, x.ready.bottom) = ([0, 0, 0, 0], [0, 0, 0, 0]) ∧ (x.retain, x.releasePending, x.pendingRereads) = (false, false, 0) := by
  decide +kernel

/-- A web one count short of tick 1,004,003, framing as at the index boundaries case, with index edges pending. -/
def beforeTick (r : RunState) (edges : Nat) (f : FramingState) (busy : Bool) : State :=
  let s := web 72500 1004002 1004002
  { s with
    ptk := { s.ptk with pendingEdges := edges }, rnc := { Rnc.reset with runState := r },
    tru := if busy then (grouped 0).tru else rotation, frt := { indexed 40 with state := f } }

theorem witness_TicksAreJudgedAndDecided :
    (∀ b ∈ [false, true], ∀ r ∈ [RunState.running, .draining], ∀ f ∈ [FramingState.seeking, .tracking], ∀ e ∈ [0, 1, 65535],
        let s := beforeTick r e f b
        s.pwrOk = true ∧ s.ptk.countForward .encA = true ∧ s.ptk.scale.pitch ≤ s.ptk.acc + s.ptk.scale.step
          ∧ s.ptk.high < s.ptk.tick + 1 ∧ s.ptk.tick + 1 ≤ 140737488355327 ∧ s.rnc.runState = r ∧ s.frt.state = f)
      ∧ (∃ t, exec (.count .encA) (beforeTick .running 1 .tracking false) = .next t)
      ∧ (indexed 40).lastBoundary = some 1000000 ∧ ((1003959 : Int) - 1000000 < 4000 - 40) ∧ ((4000 : Int) - 40 ≤ 1003960 - 1000000)
      ∧ ((1004040 : Int) - 1000000 = 4000 + 40) ∧ ((1004039 : Int) - 1000000 ≠ 4000 + 40)
      ∧ (marking .active 0).rnc.runState = .running ∧ (marking .active 0).frt.state = .tracking
      ∧ (∀ k < 2, (marking .active 0).tru.planeSet.getLsbD k = true)
      ∧ (beforeTick .running 0 .tracking false).tru.group = none ∧ groupAt rotation.table rotation.pointer = 0 :: [1] :=
  ⟨by decide +kernel, ⟨_, rfl⟩, by decide +kernel⟩

/-- O40 on the truncation: the newest frame at its row capacity of 4,161 rows and one tick before, with no boundary; and the tick of a
SYNTH boundary, R73. -/
theorem witness_TicksAreJudgedAndDecided_truncates :
    let s := tracked 2 [] 1008160
    let reaches (tick : Int) := newest.stop = none ∧ newest.start + (s.frt.capacity : Int) ≤ tick
    s.rnc.runState = .running ∧ s.frt.state = .tracking ∧ s.frt.openList.getLast? = some newest ∧ newest.slot < s.slm.slots.length
      ∧ (∀ tick ∈ [1008160, 1008161], (s.frt.judge tick 0).1 = none) ∧ reaches 1008161 ∧ ¬ reaches 1008160
      ∧ (beforeTick .running 0 .seeking false).frt.state = .seeking
      ∧ ((beforeTick .running 0 .seeking false).frt.judge 1004003 0).1 = none
      ∧ ((beforeTick .running 0 .tracking false).frt.judge 1004040 0).1 = some .synth := by
  decide +kernel

theorem test_truncation_and_synth :
    let t := (tracked 2 [] 1008160).judgeTick 1008161 0
    let synth := { beforeTick .running 0 .tracking false with
      ptk := { (beforeTick .running 0 .tracking false).ptk with tick := 1004039, high := 1004039 } }
    (t.frt.openList.map fun f => (f.stop, f.truncated)) = [(some 1004000, false), (some 1008161, true)]
      ∧ (t.slot 1).stop = some 1008161 ∧ t.ntu.counters.frames.truncated = 1
      ∧ (after (.count .encA) synth).ntu.counters.position.synthesisedIndex = 1
      ∧ maskHas (after (.count .encA) synth).ntu.pending .indexSynth := by
  decide +kernel

/-! ## Witnesses: camera lanes -/

/-- Lane 3 in a state with its link as named. -/
def linked (up : Bool) (x : LaneState) : State := State.reset.setLane 3 fun n => { n with linkUp := up, state := x }

theorem witness_LaneLinksMoveTheLane :
    ((linked false .down).lanes.get 3).linkUp = false ∧ ((linked false .down).lanes.get 3).state = .down
      ∧ ((linked true .ready).lanes.get 3).linkUp = true ∧ ((linked false .disabled).lanes.get 3).state ≠ .down
      ∧ ((linked true .active).lanes.get 3).state = .active ∧ ((linked true .rejoin).lanes.get 3).state = .rejoin
      ∧ (linked true .ready).pwrOk = true := by
  decide +kernel

/-- A LINE of four pixels with a Stream byte and a tag, as it arrives. -/
def line (stream tag : Nat) : List Byte := Packet.wire { kind := 0x48, stream := stream, tag := tag, payload := [9, 8, 7, 6] }

theorem witness_RefusedLinesAreOnlyCounted :
    readHeader ((line 0 900).take 7) = none ∧ readHeader (Packet.wire { kind := 0x49, stream := 0, tag := 0, payload := [1] })
        = some { kind := 0x49, stream := 0, tag := 0, length := 1 }
      ∧ readHeader (line 0 902) = some { kind := 0x48, stream := 0, tag := 902, length := 4 }
      ∧ ((waiting 2).lanes.get 3).placements.length < 2 ∧ ((waiting 2).lanes.get 3).queue.length ≤ (902 + 65536 - 900 % 65536) % 65536
      ∧ (((waiting 2).lanes.get 3).queue.head?.map TrigRecord.tag) = some 900 ∧ (State.reset.lanes.get 3).queue = []
      ∧ 2 ≤ ((State.setLane State.reset 3 fun n => { n with placements := [⟨0, 0, 0, [], none⟩, ⟨0, 0, 0, [], none⟩] }).lanes.get 3).placements.length := by
  decide +kernel

theorem witness_LinesTakeTheirRecords :
    readHeader (line 0 901) = some { kind := 0x48, stream := 0, tag := 901, length := 4 }
      ∧ (((waiting 2).lanes.get 3).queue.head?.map TrigRecord.tag) = some 900 ∧ 1 = (901 + 65536 - 900 % 65536) % 65536
      ∧ (((waiting 2).lanes.get 3).queue[1]?.map fun q => (q.entry, q.rejoin)) = some (0, false)
      ∧ judgePayload { kind := 0x48, stream := 0, tag := 901, length := 4 } (line 0 901) ≠ .fail
      ∧ judgePayload { kind := 0x48, stream := 0, tag := 901, length := 4 } ((line 0 901).dropLast) = .fail
      ∧ readHeader (line 1 901) = some { kind := 0x48, stream := 1, tag := 901, length := 4 }
      ∧ ((State.setLane (waiting 2) 3 fun n => { n with queue := n.queue.map fun q => { q with rejoin := true } }).lanes.get 3).queue.all
          (fun q => q.rejoin) = true := by
  decide +kernel

theorem witness_DeadlinesTakeRecordsFromTheHead :
    (State.reset.lanes.get 3).queue = [] ∧ ((waiting 2).lanes.get 3).queue.length = 2 ∧ (waiting 2).pwrOk = true
      ∧ ((waiting 2).ntu.counters.lanes.get 3).lost + 2 ≤ 4294967295 := by
  decide +kernel

/-- Frame 300 open and lane 1 with two records, of entries 1 and 0, for its rows 64 and 65. -/
def lined : State :=
  (marking .active 0).setLane 1 fun n => { n with queue :=
    [{ tag := 900, tick := 1000100, entry := 1, plane := 1, deadline := 500, rejoin := false },
      { tag := 901, tick := 1000101, entry := 0, plane := 0, deadline := 501, rejoin := false }] }

theorem test_lane_fills :
    (∀ k ∈ [0, 1], filled (after (.laneLinkLoss 1) lined) k = [(.laneDown, if k = 1 then 64 else 65)])
      ∧ filled (after (.lineTimeout 1) lined) 1 = [(.lost, 64)] ∧ filled (after (.lineTimeout 1) lined) 0 = []
      ∧ filled (after (.lanePacketReceived 1 (line 0 901).dropLast) lined) 1 = [(.lost, 64)]
      ∧ filled (after (.lanePacketReceived 1 (line 0 901).dropLast) lined) 0 = [(.check, 65)]
      ∧ filled (after (.lanePacketReceived 1 (line 0 900)) lined) 1 = [(.check, 64)] := by
  decide +kernel

theorem witness_lane_fills :
    (lined.lanes.get 1).queue.map (fun q => (q.plane, q.rejoin, q.tick - 36)) = [(1, false, 1000064), (0, false, 1000065)]
      ∧ (lined.lanes.get 1).record.offset = 36 ∧ (lined.lanes.get 1).state = .active
      ∧ lined.keeper 1000064 = some 0 ∧ lined.keeper 1000065 = some 0
      ∧ (lined.slot 0).markOf 1 1 64 = .unresolved ∧ (lined.slot 0).markOf 1 0 65 = .unresolved
      ∧ (lined.lanes.get 1).queue.takeWhile (fun x => x.deadline ≤ 500) ≠ []
      ∧ judgePayload { kind := 0x48, stream := 0, tag := 901, length := 4 } (line 0 901).dropLast = .fail
      ∧ (((lined.setLane 1 fun n => { n with placements := [⟨1, 1000100, 1000064, [], none⟩] }).lanes.get 1).placements.map
          Placement.position = [1000064]) := by
  decide +kernel

/-- O43 on the place: a row of the open frame with no mark, that row already marked, and a position that no frame keeps. -/
theorem witness_LinesTakeTheirRecords_places :
    readHeader (line 1 900) = some { kind := 0x48, stream := 1, tag := 900, length := 4 }
      ∧ judgePayload { kind := 0x48, stream := 1, tag := 900, length := 4 } (line 1 900) = .pass
      ∧ lined.keeper 1000064 = some 0 ∧ (lined.slot 0).markOf 1 1 64 = .unresolved
      ∧ ((lined.setSlot 0 fun x => x.resolved 1 1 64 (.filled .lost)).slot 0).markOf 1 1 64 ≠ .unresolved
      ∧ (waiting 2).keeper (4000 - 12) = none := by
  decide +kernel

/-- A short line is padded with the lane's fill value and goes to its row (R55, R101). -/
theorem test_line_placement :
    let s := lined.setLane 1 fun n => { n with record := { n.record with expected := 6, fill := 3 } }
    let y (s : State) := ((after (.lanePacketReceived 1 (line 1 900)) s).lanes.get 1).placements.map fun y => (y.pixels, y.place)
    y s = [([9, 8, 7, 6, 3, 3], some { slot := 0, row := 64, alloc := 1 })]
      ∧ y (s.setSlot 0 fun x => x.resolved 1 1 64 (.filled .lost)) = [] := by
  decide +kernel

/-! ## Witnesses: slots and the line store -/

/-- The placing case with a line of lane 1 in the row of frame 300 that images position 1,000,064, under an allocation number. -/
def placed (alloc : Nat) : State :=
  placing.setLane 1 fun n => { n with placements :=
    [{ plane := 1, tick := 1000100, position := 1000064, pixels := List.replicate 8192 5,
       place := some { slot := 0, row := 64, alloc := alloc } }] }

theorem witness_PlacementsWriteTheirRow :
    (∃ y ys pl, ((placed 1).lanes.get 1).placements = y :: ys ∧ (placed 1).placementOutside 1 y = false ∧ y.place = some pl
        ∧ (placed 1).stillHolds pl = true ∧ (placed 1).keeper y.position = some 0
        ∧ ((placed 1).slot 0).markOf 1 y.plane (y.position - ((placed 1).slot 0).start).toNat = .unresolved)
      ∧ (∃ y ys pl, ((placed 2).lanes.get 1).placements = y :: ys ∧ y.place = some pl ∧ (placed 2).stillHolds pl = false)
      ∧ ((after (.placementComplete 1) (placed 1)).slot 0).state ≠ .free :=
  ⟨⟨_, _, _, rfl, by decide +kernel, rfl, by decide +kernel, by decide +kernel, by decide +kernel⟩,
    ⟨_, _, _, rfl, rfl, by decide +kernel⟩, by decide +kernel⟩

theorem witness_ReadsSubstituteFilledRows :
    let lane2 : GeoLane := { lane := 2, side := .top, first := 8064, last := 16127, fill := 0 }
    let x := { frame60 with geometry :=
      { widthTop := 16128, widthBottom := 64, tileWidth := 4096, tileHeight := 8, layers := [0, 1], lanes := [lane2] } }
    (∀ y ∈ x.geometry.lanes, y.side = layerSide 1 → ¬ (y.first ≤ 8063 ∧ 8063 ≤ y.last))
      ∧ lane2 ∈ x.geometry.lanes ∧ lane2.side = layerSide 1 ∧ lane2.first ≤ 8064 ∧ 16127 ≤ lane2.last
      ∧ (∀ z ∈ x.geometry.lanes, z.side = layerSide 1 → z.first ≤ 8064 → 8064 ≤ z.last → z = lane2)
      ∧ x.markOf 2 1 1 = .written ∧ x.markOf 2 1 0 = .filled ∧ x.markOf 2 1 4 = .filled
      ∧ (∀ r < 5, 1 < r → r < 4 → x.markOf 2 1 r ≠ .written) ∧ ∀ r < 0, x.markOf 2 1 r ≠ .written := by
  decide +kernel

/-! ## Witnesses: delivery and the host ports -/

/-- A geometry of four tile columns on side 0 that holds layer 0. -/
def fourColumns : Geometry :=
  { widthTop := 16128, widthBottom := 8192, tileWidth := 4096, tileHeight := 256, layers := [0], lanes := [] }

theorem witness_ColumnOrderIsAPermutationFromTheLead :
    ((planOf RouteRecord.default fourColumns).layers ≠ [] ∧ RouteRecord.default.colFirst ≤ RouteRecord.default.colLast)
      ∧ ∀ p ∈ [Plan.mk [] 0 127 127, Plan.mk [] 127 127 127, Plan.mk [] 0 127 0],
          p.colFirst ≤ p.lead ∧ p.lead ≤ p.colLast ∧ p.colLast ≤ 127 := by
  decide +kernel

theorem witness_PortLinksMoveThePort :
    State.reset.pwrOk = true ∧ (State.reset.ports.get .a).link = .down ∧ ((stored .closed .opened).ports.get .a).link ≠ .down
      ∧ ((after (.portLinkLoss .a) (stored .closed .opened)).dle.routes.get 0).port = .a := by
  decide +kernel

/-- A frame with route 0 PENDING, or OPENED, and route 1 OPENED, to be retained, with a reread of it queued on port A; the link of port A
and the run state as named. -/
def linking (link : LinkState) (run : RunState) (retain : Bool) : State :=
  let s := ((mixed retain [0, 1]).setSlot 0 fun x => { x with pendingRereads := 1 }).setRereads .a fun _ =>
    [⟨0, 1, 5, 0, 0, 0, 0, 4, 0, none, false⟩]
  { s.setPort .a (fun h => { h with link := link }) with rnc := { Rnc.reset with runState := run } }

/-- O48 where the frames, their slots and their records agree, with no more entries queued than rereads pending. -/
theorem witness_PortLinksMoveThePort_rereads :
    (∀ link ∈ [LinkState.down, .up], ∀ run ∈ [RunState.running, .draining], ∀ retain ∈ [false, true],
        framesAgree (linking link run retain) ∧ ((linking link run retain).ports.get .a).link = link
          ∧ ((linking link run retain).dle.rereads.get .a).countP (fun e => e.slot = 0) ≤ ((linking link run retain).slot 0).pendingRereads)
      ∧ State.reset.dle.rereads.get .a = [] := by
  decide +kernel

/-- A link-up report empties the reread queue (R149); in DRAINING a link loss ends both records, and the slot is HELD or freed (R148, R150). -/
theorem test_links_and_rereads :
    let slot (s : State) := ((s.slot 0).state, (s.slot 0).pendingRereads, (s.dle.rereads.get .a).length)
    let lost (retain : Bool) := after (.portLinkLoss .a) (linking .up .draining retain)
    slot (after (.portLinkUp .a) (linking .down .running false)) = (.closed, 0, 0)
      ∧ slot (after (.portLinkUp .a) ((linking .down .running false).setSlot 0 fun x => { x with state := .held, releasePending := true }))
        = (.free, 0, 0)
      ∧ slot (lost true) = (.held, 0, 0) ∧ slot (lost false) = (.free, 0, 0) ∧ (lost false).ntu.counters.ports.a.abortedFrames = 1
      ∧ ((lost true).dle.records.get 0).map Delivery.state = [.skipped] ∧ ((lost true).dle.records.get 1).map Delivery.state = [.aborted]
      ∧ slot (after (.portLinkLoss .a) (linking .up .running false)) = (.closed, 0, 0) := by
  decide +kernel

/-- IDENTIFY as it arrives on a host port, and a SET_LEAD with two payload bytes. -/
def identifyBytes : List Byte := Packet.wire { kind := 0x01, stream := 0x80, tag := 1, payload := [] }
def leadBytes : List Byte := Packet.wire { kind := 0x36, stream := 0x80, tag := 2, payload := [7, 127] }

theorem witness_HostPacketsJoinTheInboundBuffer :
    (State.reset.ports.get .b).link = .down ∧ ((arrive State.reset .a (cmd 1 [])).ports.get .a).link ≠ .down
      ∧ readHeader (identifyBytes.take 7) = none ∧ readHeader identifyBytes = some ⟨0x01, 0x80, 1, 0⟩
      ∧ judgePayload ⟨0x01, 0x80, 1, 0⟩ identifyBytes = .absent ∧ readHeader leadBytes = some ⟨0x36, 0x80, 2, 2⟩
      ∧ judgePayload ⟨0x36, 0x80, 2, 2⟩ leadBytes = .pass ∧ judgePayload ⟨0x36, 0x80, 2, 2⟩ leadBytes.dropLast = .fail
      ∧ 16 ≤ ((State.reset.setPort .a fun h => { h with inbound := List.replicate 16 (cmd 1 []) }).ports.get .a).inbound.length
      ∧ ((State.reset.setPort .a fun h => { h with inbound := List.replicate 15 (cmd 1 []) }).ports.get .a).inbound.length < 16 := by
  decide +kernel

/-- Frame 5 OPENED on route 0, a packet of it in transmission on port A, and a reread of it queued there. -/
def deliver (x : TxSource) (rereads : Nat) : State :=
  State.setRereads ((sending (stored .held .opened) .a x).setSlot 0 fun y => { y with pendingRereads := rereads, releasePending := true }) .a
    fun _ => [⟨0, 1, 5, 0, 0, 0, 0, 4, 0, none, false⟩]

theorem witness_PacketsSentHaveTheirEffect :
    (∀ x ∈ [TxSource.reply, .notice, .frameOpen 0 1, .segment 0 1 2 false, .segment 0 1 2 true, .tileAbort 0 1, .frameEnd 0 1 true,
          .frameEnd 0 1 false, .reread 1 2 false, .reread 1 4 true],
        (deliver x 2).pwrOk = true ∧ (deliver x 2).ports.a.tx = some { source := x, packet := restPacket }
          ∧ ((deliver x 2).recordOf 0 1).map (fun d => d.plan) = some (some ⟨[0], 0, 1, 0⟩)
          ∧ ((deliver x 2).dle.rereads.get .a).map Reread.alloc = [1])
      ∧ (deliver (.segment 0 9 2 false) 2).recordOf 0 9 = none
      ∧ (∀ e, ((deliver (.reread 9 2 false) 2).dle.rereads.get .a).head? = some e → e.alloc ≠ 9)
      ∧ 1 < ((deliver .reply 2).slot 0).pendingRereads ∧ ((deliver .reply 1).slot 0).pendingRereads = 1
      ∧ ((deliver .reply 1).slot 0).state = .held ∧ ((deliver .reply 1).slot 0).releasePending = true := by
  decide +kernel

/-- The last segment of the only pending reread of frame 5 in transmission, its slot as named. -/
def rereading (x : SlotState) (retain release : Bool) (routes : List (Fin 8)) : State :=
  (deliver (.reread 1 4 true) 1).setSlot 0 fun y =>
    { y with state := x, retain := retain, releasePending := release, outstanding := routes }

theorem test_reread_ends :
    let slot (s : State) := (((after (.rereadSegmentSent .a) s).slot 0).state, ((after (.rereadSegmentSent .a) s).slot 0).retain)
    slot (rereading .closed false false []) = (.free, false) ∧ slot (rereading .closed true false []) = (.held, false)
      ∧ slot (rereading .closed true false [0]) = (.closed, true) ∧ slot (rereading .held false true []) = (.free, false)
      ∧ slot (rereading .held false false []) = (.held, false) := by
  decide +kernel

/-- O50 on the slots: the last route of a CLOSED slot, and the last pending reread of each kind of slot. -/
theorem witness_PacketsSentHaveTheirEffect_frees :
    0 ∈ ((deliver (.frameEnd 0 1 false) 1).slot 0).outstanding
      ∧ ∀ s ∈ [rereading .closed false false [], rereading .closed true false [], rereading .held false false []],
          s.ports.a.tx = some { source := .reread 1 4 true, packet := restPacket }
            ∧ (s.dle.rereads.get .a).map (fun e => (e.slot, e.alloc)) = [(0, 1)] ∧ 1 ≤ (s.slot 0).pendingRereads := by
  decide +kernel

/-- Port B RESTING with a staged record, and the SET_PORT that staged it held in hand on port A. -/
def stagedOn (tile : Option TileRef) : State :=
  let s := (routed.setPort .b fun h => { h with link := .resting, staged := some PortRecord.default, tile := tile }).setPort .a fun h =>
    { h with link := .up, replies := [some restPacket, none] }
  { s with rnc := { Rnc.reset with inHand := { a := some (portCmd 1 0 16384), b := none } } }

theorem witness_StagedRecordsWaitForTheTile :
    let staged (rest : Bool) (f : HostPort → HostPort) := idleFor 0 fun h =>
      f { h with staged := some { PortRecord.default with restEnable := rest, restDelay := 10 } }
    (State.reset.ports.get .b).staged = none ∧ ((stagedOn (some .reread)).ports.get .b).tile ≠ none
      ∧ ((stagedOn none).ports.get .b).staged = some PortRecord.default ∧ ((stagedOn none).ports.get .b).tile = none
      ∧ ((stagedOn none).ports.get .b).link = .resting ∧ PortRecord.default.restEnable = false
      ∧ (stagedOn none).rnc.inHand.a = some (portCmd 1 0 16384) ∧ (stagedOn none).rnc.inHand.b = none
      ∧ byteAt (portCmd 1 0 16384).payload 0 = portCode .b ∧ (stagedOn none).ports.a.replies = [some restPacket] ++ none :: []
      ∧ none ∉ [some restPacket]
      ∧ ((staged true id).setPort .a fun h =>
          { h with record := { PortRecord.default with restEnable := true, restDelay := 10 }, staged := none }).mayRest .a
      ∧ ((staged true id).ports.get .a).idleTimer = some 0 ∧ 10 * 100 ≤ (staged true id).now - 0
      ∧ ((staged false fun h => { h with tx := some { source := .rest, packet := restPacket } }).ports.get .a).tx
          = some { source := .rest, packet := restPacket }
      ∧ ((staged false id).ports.get .a).link ≠ .resting := by
  decide +kernel

/-- Port A UP with rest enable set and the idle timer started, and nothing to send. -/
def idle (rest : Bool) : State :=
  State.reset.setPort .a fun h =>
    { h with link := .up, idleTimer := some 0, record := { h.record with restEnable := rest, restDelay := 10 } }

theorem witness_PortsRestAndWake :
    let resting (f : HostPort → HostPort) := (sending (idle true) .a .rest).setPort .a f
    ((idle true).ports.get .a).idleTimer = some 0 ∧ ((idle true).formOpens .a).mayRest .a ∧ ¬ ((idle false).formOpens .a).mayRest .a
      ∧ ¬ ({ idle true with rnc := { Rnc.reset with resetDue := true } } : State).mayRest .a
      ∧ (State.reset.ports.get .a).idleTimer = none
      ∧ (∀ s ∈ [resting id, resting fun h => { h with wakeOwed := true }, resting fun h => { h with notices := [restPacket] }],
          (s.ports.get .a).tx = some { source := .rest, packet := restPacket } ∧ (s.ports.get .a).link = .up)
      ∧ (((resting id).formOpens .a).workPresent .a = false ∧ ((resting id).ports.get .a).wakeOwed = false)
      ∧ ((resting fun h => { h with notices := [restPacket] }).formOpens .a).workPresent .a = true
      ∧ ((sending (idle false) .a .rest).ports.get .a).record.restEnable = false
      ∧ (((idle true).setPort .b fun h => { h with link := .waking, wakeTimer := some 7 }).ports.get .b).link = .waking := by
  decide +kernel

/-- A wake owed outlives what owed it. -/
theorem test_wake_owed :
    let s := (sending (idle true) .a .rest).setPort .a fun h => { h with wakeOwed := true }
    ((after (.restSent .a) s).ports.get .a).link = .waking
      ∧ ((after (.restSent .a) (sending (idle true) .a .rest)).ports.get .a).link = .resting := by
  decide +kernel

/-- No wake-lead test is made at a REST's last byte: one that would pass there, with none made meanwhile, wakes nothing; made at a tick or
at a change of lane progress, it owes a wake (R163, R164). -/
theorem test_no_wake_lead_test_at_the_last_byte :
    let s := { tracked 1 [] 1000100 with dle := { (tracked 1 [] 1000100).dle with
      routes := { RouteRecord.default |> Eight.const with e0 := { RouteRecord.default with enable := true, early := true } } } }
    let s := sending (s.setPort .a fun h => { h with record := { h.record with restEnable := true, wakeLead := 4095 } }) .a .rest
    s.leadPresent .a (s.unpaused .a) = true ∧ ((after (.restSent .a) s).ports.get .a).link = .resting
      ∧ ((after (.restSent .a) (s.settle true)).ports.get .a).link = .waking := by
  decide +kernel

/-- Port B, on which route 0 delivers frame 300 early, free and set to rest, its idle timer past the delay; the frame's first band keeps
it awake. -/
def nearBand : State :=
  let s := { tracked 1 [] 1000100 with
    now := 1000,
    dle := { (tracked 1 [] 1000100).dle with
      routes := (Eight.const RouteRecord.default).set 0 { RouteRecord.default with enable := true, early := true, port := .b } } }
  s.setPort .b fun h =>
    { h with link := .up, idleTimer := some 0, record := { h.record with restEnable := true, restDelay := 10, wakeLead := 4095 } }

/-- R163: rest begins whichever of its conditions comes last, here the wake-lead test, which lapses as port A revokes the frame; and port
A, the same, begins no REST while a command reset is due. -/
theorem test_rest_begins_when_its_last_condition_comes :
    (after .stall nearBand).ports.b.tx = none
      ∧ (after (.revoke .a) (arrive nearBand .a (cmd 0x32 (le 4 300 ++ [1])))).ports.b.tx = some { source := .rest, packet := restPacket }
      ∧ ((resting 0).settle false).ports.a.tx = some { source := .rest, packet := restPacket }
      ∧ (({ resting 0 with rnc := { Rnc.reset with resetDue := true } } : State).settle false).ports.a.tx = none := by
  decide +kernel

/-- R60, R164: the wake-lead test, which RESTING port B's route would pass, is made at a tick handed on, and not at a damaged line packet,
nor at the link loss of a lane that is not enabled, which change no progress. -/
theorem test_wake_lead_is_tested_at_ticks_and_progress :
    let link (c : Instr) (run : RunState) := ((after c { nearBand.setPort .b fun h => { h with link := .resting } with
      rnc := { Rnc.reset with runState := run }, ptk := { nearBand.ptk with scale := spacingScale, acc := 72500 } }).ports.b).link
    link (.count .encA) .running = .waking ∧ link (.lanePacketReceived 0 [0, 0]) .running = .resting
      ∧ link (.laneLinkLoss 7) .running = .resting := by
  decide +kernel

/-! ## Witnesses: what every step keeps -/

/-- A running web about to emit a tick, with its count waiting. -/
def counting : State :=
  { web 72500 4 4 with pending := [.count .encA], rnc := { Rnc.reset with runState := .running } }

theorem witness_invariants :
    counting.positionOk ∧ counting.queuesOk ∧ counting.allocOk ∧ counting.slm.store.wf ∧ ∃ t, step counting = .next t :=
  ⟨by decide +kernel, by decide +kernel, by decide +kernel, by decide +kernel, ⟨_, rfl⟩⟩

theorem witness_StoreAndAllocationsStayInOrder :
    let s := { backing with pending := [.count .encB] }
    s.slm.store.wf ∧ s.allocOk ∧ s.framesOk ∧ ∃ t, step s = .next t :=
  ⟨by decide +kernel, by decide +kernel, framesOk_of (by decide +kernel), ⟨_, rfl⟩⟩

theorem witness_MarksAreSetOnce :
    let s := { State.reset with pending := [.stall], slm := { State.reset.slm with allocCounter := 1, slots := [frame60] } }
    s.allocOk ∧ (s.slot 0).alloc ≠ 0 ∧ (s.slot 0).markOf 2 1 0 ≠ .unresolved
      ∧ ∃ t, step s = .next t ∧ (t.slot 0).alloc = (s.slot 0).alloc :=
  ⟨by decide +kernel, by decide +kernel, by decide +kernel, ⟨_, rfl, by decide +kernel⟩⟩

theorem witness_HighWaterMarkFallsOnlyByRewindOrRestart :
    let s : State := { consistent with ptk := { consistent.ptk with tick := -5, high := -5 } }
    (∃ t, exec (.count .encA) counting = .next t ∧ counting.ptk.high < t.ptk.high) ∧ counting.ptk.tick ≤ counting.ptk.high
      ∧ (∃ t, exec (.count .encB) (web 0 498 500) = .next t ∧ t.ptk.high < (web 0 498 500).ptk.high
          ∧ t.ptk.tick ≠ (web 0 498 500).ptk.tick)
      ∧ ∃ t, exec (.runStart .a) (arrive s .a (cmd 0x20 [])) = .next t ∧ -5 < t.ptk.high :=
  ⟨⟨_, rfl, by decide +kernel⟩, by decide +kernel, ⟨_, rfl, by decide +kernel, by decide +kernel⟩, ⟨_, rfl, by decide +kernel⟩⟩

theorem witness_RunStateMovesOnlyAsTheTableSays :
    (∃ t, exec (.runStart .a) (arrive consistent .a (cmd 0x20 [])) = .next t ∧ t.rnc.runState ≠ .config)
      ∧ (∃ t, exec (.runStop .a) (arrive (inRun .running) .a (cmd 0x21 [])) = .next t ∧ t.rnc.runState ≠ .running)
      ∧ ∃ t, exec .endOfDraining (draining true [.free]) = .next t ∧ t.rnc.runState ≠ .draining :=
  ⟨⟨_, rfl, by decide +kernel⟩, ⟨_, rfl, by decide +kernel⟩, ⟨_, rfl, by decide +kernel⟩⟩

theorem witness_SetupIsFixedInARunAndOutOfPortBsReach :
    (Instr.stall.isReset = false ∧ (inRun .running).rnc.runState ≠ .config ∧ ∃ t, exec .stall (inRun .running) = .next t)
      ∧ (Instr.pause .b).command = some (.b, 0x30) ∧ (State.reset.dle.routes.get 0).port = .a
      ∧ ∃ t, exec (.pause .b) (arrive State.reset .b (cmd 0x30 [1])) = .next t :=
  ⟨⟨rfl, by decide +kernel, ⟨_, rfl⟩⟩, rfl, by decide +kernel, ⟨_, rfl⟩⟩

end Sys2Proof.Tests
end

/-! # Encoder errors (R4)

An encoder error moves the quadrature state and one counter, and the ports then make their choices. So the one thing to say beyond the
frame lemmas is that the ports' choices (R159 to R164) leave the backlog of the routes and the ports alone. -/

namespace Sys2Proof.Machine

/-! ## The backlog, and what leaves it alone -/

/-- The records and queues of a host port: what `HostPort.sameQueues` compares. -/
def HostPort.queues (h : HostPort) :
    PortRecord × Option PortRecord × List InPacket × List (Option Packet) × List Packet :=
  (h.record, h.staged, h.inbound, h.replies, h.notices)

/-- What the ports' choices leave alone, as one reading of the state, so that it rewrites through them and goes through folds. -/
structure Backlog where
  routes : Eight RouteRecord
  paused : BitVec 8
  records : Fin 8 → List (Nat × Nat × RecordState × Cursor × Bool × Bool)
  rereads : Port → List Reread
  queues : Port → PortRecord × Option PortRecord × List InPacket × List (Option Packet) × List Packet

/-- The backlog of a state: the records of a route and the entries of a reread queue by their cores alone. -/
def State.backlog (s : State) : Backlog where
  routes := s.dle.routes
  paused := s.dle.paused
  records r := (s.dle.records.get r).map Delivery.core
  rereads p := (s.dle.rereads.get p).map Reread.core
  queues p := (s.ports.get p).queues

theorem HostPort.queues_eq_iff (h k : HostPort) : k.queues = h.queues ↔ h.sameQueues k := by
  simp [HostPort.queues, HostPort.sameQueues]

/-- The backlog is what the statements call the same delivery state and the same queues. -/
theorem State.backlog_eq_iff (s t : State) :
    t.backlog = s.backlog ↔ s.sameDelivery t ∧ ∀ p, (s.ports.get p).sameQueues (t.ports.get p) := by
  have both (f g : Port → List Reread) : f = g ↔ f .a = g .a ∧ f .b = g .b :=
    ⟨fun h => h ▸ ⟨rfl, rfl⟩, fun ⟨ha, hb⟩ => funext fun p => by cases p <;> assumption⟩
  simp only [State.backlog, Backlog.mk.injEq, both, funext_iff, HostPort.queues_eq_iff, State.sameDelivery, and_assoc, Both.get]

theorem State.setPort_backlog (s : State) (p : Port) (f : HostPort → HostPort)
    (hf : (f (s.ports.get p)).queues = (s.ports.get p).queues) : (s.setPort p f).backlog = s.backlog := by
  have hq (q : Port) : ((s.setPort p f).ports.get q).queues = (s.ports.get q).queues := by
    rw [State.setPort_get]
    split
    · next e => rw [e, hf]
    · rfl
  simp [State.backlog, hq]

theorem State.setRecord_backlog (s : State) (r : Fin 8) (a : Nat) (f : Delivery → Delivery) (hf : ∀ d, (f d).core = d.core) :
    (s.setRecord r a f).backlog = s.backlog := by
  have hr (q : Fin 8) : ((s.setRecord r a f).dle.records.get q).map Delivery.core = (s.dle.records.get q).map Delivery.core := by
    rw [State.setRecord_get]
    split
    · next e =>
      rw [e, List.map_map]
      refine List.map_congr_left fun d _ => ?_
      simp only [Function.comp_apply]
      split <;> simp [hf]
    · rfl
  simp [State.backlog, hr]

theorem State.setRereads_backlog (s : State) (p : Port) (f : List Reread → List Reread)
    (hf : (f (s.dle.rereads.get p)).map Reread.core = (s.dle.rereads.get p).map Reread.core) :
    (s.setRereads p f).backlog = s.backlog := by
  have hq (q : Port) : ((s.setRereads p f).dle.rereads.get q).map Reread.core = (s.dle.rereads.get q).map Reread.core := by
    rw [State.setRereads_get]
    split
    · next e => rw [e, hf]
    · rfl
  simp [State.backlog, hq]

/-! ## The ports' choices, one operation at a time -/

@[simp] theorem State.send_backlog (s : State) (p : Port) (x : TxSource) (k : Packet) : (s.send p x k).backlog = s.backlog :=
  s.setPort_backlog p _ rfl

@[simp] theorem State.sendSegment_backlog (s : State) (p : Port) (r : Fin 8) (d : Delivery) (x : TileSpan) (c n : Nat) :
    (s.sendSegment p r d x c n).backlog = s.backlog :=
  s.send_backlog p _ _

@[simp] theorem State.continueTile_backlog (s : State) (p : Port) (r : Fin 8) : (s.continueTile p r).backlog = s.backlog := by
  unfold State.continueTile
  repeat' split
  all_goals simp

/-- A tile fixes its span in the record and becomes the tile in progress; neither is in the backlog. -/
@[simp] theorem State.beginTile_backlog (s : State) (p : Port) (r : Fin 8) (d : Delivery) (c n : Nat) :
    (s.beginTile p r d c n).backlog = s.backlog := by
  unfold State.beginTile
  rw [State.sendSegment_backlog, State.setPort_backlog _ _ _ rfl]
  exact s.setRecord_backlog r _ _ fun _ => rfl

@[simp] theorem State.serveRoute_backlog (s : State) (p : Port) (r : Fin 8) : (s.serveRoute p r).backlog = s.backlog := by
  unfold State.serveRoute
  split <;> simp

/-- A reread segment fixes the rows per segment of the entry at the head; the entry is otherwise the same. -/
@[simp] theorem State.serveReread_backlog (s : State) (p : Port) : (s.serveReread p).backlog = s.backlog := by
  unfold State.serveReread
  split
  · rfl
  · next e es he =>
    dsimp only
    rw [State.send_backlog, State.setPort_backlog _ _ _ rfl, State.setRereads_backlog]
    rw [he]; rfl

@[simp] theorem State.serveNext_backlog (s : State) (p : Port) : (s.serveNext p).backlog = s.backlog := by
  have hpointer (i : Fin 9) : (s.setPort p fun h => { h with pointer := i }).backlog = s.backlog := s.setPort_backlog p _ rfl
  unfold State.serveNext
  split
  · rfl
  · dsimp only
    split <;> simp [hpointer]

@[simp] theorem State.choose_backlog (s : State) (p : Port) : (s.choose p).backlog = s.backlog := by
  unfold State.choose
  dsimp only
  repeat' split
  all_goals simp

@[simp] theorem State.formOpen_backlog (s : State) (r : Fin 8) : (s.formOpen r).backlog = s.backlog := by
  rcases s.formOpen_cases r with h | ⟨d, plan, -, -, -, -, -, h⟩
  · rw [h]
  · rw [h]; exact s.setRecord_backlog r _ _ fun _ => rfl

@[simp] theorem State.formOpens_backlog (s : State) (p : Port) : (s.formOpens p).backlog = s.backlog := by
  unfold State.formOpens
  split
  · rfl
  · exact foldl_keeps State.backlog State.formOpen State.formOpen_backlog _ s

@[simp] theorem State.wake_backlog (s : State) (p : Port) (lead : Bool) : (s.wake p lead).backlog = s.backlog := by
  have hstart : (s.startWake p).backlog = s.backlog := by
    unfold State.startWake
    split
    · exact s.setPort_backlog p _ rfl
    · split
      · exact s.setPort_backlog p _ rfl
      · rfl
  unfold State.wake
  split
  · exact hstart
  · rfl

@[simp] theorem State.idleUpkeep_backlog (s : State) (p : Port) : (s.idleUpkeep p).backlog = s.backlog :=
  s.setPort_backlog p _ (by split <;> rfl)

@[simp] theorem State.judgeRest_backlog (s : State) (p : Port) : (s.judgeRest p).backlog = s.backlog := by
  have hrest : (s.beginRest p).backlog = s.backlog := by
    unfold State.beginRest
    rw [State.setPort_backlog _ _ _ rfl, State.send_backlog]
  rcases s.judgeRest_cases p with h | ⟨-, -, h⟩
  · rw [h]
  · rw [h, hrest]

@[simp] theorem State.settlePort_backlog (s : State) (p : Port) (lead : Bool) : (s.settlePort p lead).backlog = s.backlog := by
  simp [State.settlePort]

/-- What the ports do after a step leaves the delivery state and the queues of both ports alone. -/
@[simp] theorem State.settle_backlog (s : State) (lead : Bool) : (s.settle lead).backlog = s.backlog := by
  simp [State.settle]

/-! ## The meaning of an encoder error -/

/-- The state that an encoder error makes before the ports' choices. -/
def State.encoderErrorTaken (s : State) : State :=
  State.encoderErrorCounted { s with ptk := { s.ptk with quadA := !s.ptk.quadA, quadB := !s.ptk.quadB } }

theorem exec_encoderError (s : State) (h : s.pwrOk = true) : exec .encoderError s = .next (s.encoderErrorTaken.settle false) := by
  have harm : exec .encoderError s = execEncoderError s := rfl
  rw [harm, execEncoderError, State.whenPowered_high _ _ h, State.encoderErrorTaken]

theorem State.encoderErrorTaken_backlog (s : State) : s.encoderErrorTaken.backlog = s.backlog := rfl

/-- Settles O33: the frame of the ports' choices, over the one change of the Position Tracker and the one counter. -/
theorem encoderErrorsAreOnlyCounted : Obligations.EncoderErrorsAreOnlyCounted := by
  intro s hs
  have hbacklog : (s.encoderErrorTaken.settle false).backlog = s.backlog := by
    rw [State.settle_backlog, State.encoderErrorTaken_backlog]
  obtain ⟨hdelivery, hqueues⟩ := (State.backlog_eq_iff _ _).mp hbacklog
  refine ⟨_, exec_encoderError s hs, ?ptk, ?ntu, ?tru, ?lanes, ?frt, ?slm, ?layout, ?rnc, ?now, hdelivery, hqueues⟩
  case ntu =>
    simp only [State.settle_frame]
    rfl
  all_goals simp [State.encoderErrorTaken]

end Sys2Proof.Machine

/-! # Column order (R128)

The order of a plan is the sweep of its width from its lead, moved up by its first column. So what a sweep holds, where it begins and
when it ascends is said of the numbers r_0 XOR i alone, and carried to the columns. -/

namespace Sys2Proof.Machine

/-! ## The lead used -/

/-- A plan with a delivered layer starts at the route's first column, and some held layer reaches past it: the clamped range is not
empty. -/
theorem planOf_lead (r : RouteRecord) (g : Geometry) (hlayers : (planOf r g).layers ≠ []) (hrange : r.colFirst ≤ r.colLast) :
    (planOf r g).lead = max (planOf r g).colFirst (min r.lead (planOf r g).colLast) := by
  unfold planOf at hlayers ⊢
  dsimp only at hlayers ⊢
  split at hlayers
  · exact absurd rfl hlayers
  · next hdelivers =>
    rw [if_neg hdelivers]
    obtain ⟨-, hmost⟩ := not_or.mp hdelivers
    dsimp only
    split
    · omega
    · split <;> omega

/-! ## The smallest power of two not below the width -/

theorem powerFor_eq_range_find (m : Nat) :
    powerFor m = (((List.range 7).find? fun e => m ≤ 2 ^ e).map (2 ^ ·)).getD (2 ^ 7) := by
  have hpowers : [1, 2, 4, 8, 16, 32, 64] = (List.range 7).map (2 ^ ·) := by decide
  rw [powerFor, hpowers, List.find?_map]
  rfl

theorem powerFor_spec (m : Nat) (hm : m ≤ 128) : ∃ e, powerFor m = 2 ^ e ∧ m ≤ 2 ^ e ∧ ∀ f, m ≤ 2 ^ f → e ≤ f := by
  have hleast {e : Nat} (hsmall : ∀ j < e, (!decide (m ≤ 2 ^ j)) = true) (f : Nat) (hf : m ≤ 2 ^ f) : e ≤ f :=
    not_lt.mp fun hlt => by simpa [hf] using hsmall f hlt
  rw [powerFor_eq_range_find]
  cases hfind : (List.range 7).find? fun e => m ≤ 2 ^ e with
  | none => exact ⟨7, rfl, hm, hleast (List.find?_range_eq_none.mp hfind)⟩
  | some e =>
    obtain ⟨hfits, -, hsmall⟩ := List.find?_range_eq_some.mp hfind
    exact ⟨e, rfl, of_decide_eq_true hfits, hleast hsmall⟩

/-! ## The sweep -/

/-- The numbers start XOR i for i below q, those of m or more being passed over. -/
def xorSweep (start q m : Nat) : List Nat := ((List.range q).map fun i => start ^^^ i).filter (· < m)

theorem Plan.columnOrder_eq_xorSweep (p : Plan) :
    p.columnOrder = (xorSweep (p.lead - p.colFirst) (powerFor (p.colLast - p.colFirst + 1)) (p.colLast - p.colFirst + 1)).map
      (p.colFirst + ·) := by
  simp only [Plan.columnOrder, xorSweep, ← List.filterMap_eq_map, List.filterMap_filter, decide_eq_true_eq, Function.comp_apply]

theorem xorSweep_nodup (start q m : Nat) : (xorSweep start q m).Nodup :=
  (List.nodup_range.map Nat.xor_right_injective).filter _

/-- Every number below the power is met, at its own XOR with the start. -/
theorem mem_xorSweep {start e m r : Nat} (hstart : start < 2 ^ e) (hm : m ≤ 2 ^ e) : r ∈ xorSweep start (2 ^ e) m ↔ r < m := by
  simp only [xorSweep, List.mem_filter, List.mem_map, List.mem_range, decide_eq_true_eq, and_iff_right_iff_imp]
  intro hr
  exact ⟨start ^^^ r, Nat.xor_lt_two_pow hstart (hr.trans_le hm), Nat.xor_xor_cancel_left start r⟩

theorem xorSweep_head? {start q m : Nat} (hstart : start < m) (hq : 0 < q) : (xorSweep start q m).head? = some start := by
  obtain ⟨n, rfl⟩ := Nat.exists_eq_succ_of_ne_zero hq.ne'
  simp [xorSweep, List.range_succ_eq_map, hstart]

/-- From 0 the sweep counts up, and what it passes over comes after all it keeps. -/
theorem xorSweep_zero {q m : Nat} (hm : m ≤ q) : xorSweep 0 q m = List.range m := by
  obtain ⟨k, rfl⟩ := Nat.exists_eq_add_of_le hm
  have hkept : (List.range m).filter (· < m) = List.range m := by simp [List.filter_eq_self]
  have hpassed : ((List.range k).map (m + ·)).filter (· < m) = [] := by simp [List.filter_eq_nil_iff]
  simp only [xorSweep, Nat.zero_xor, List.map_id', List.range_add, List.filter_append, hkept, hpassed, List.append_nil]

/-! ## The column order -/

/-- Settles O47: the sweep of the width from the lead, moved up by the first column. -/
theorem columnOrderIsAPermutationFromTheLead : Obligations.ColumnOrderIsAPermutationFromTheLead := by
  refine ⟨planOf_lead, fun p hfirst hlast hcolumns => ?_⟩
  obtain ⟨e, hpower, hfits, hleast⟩ := powerFor_spec (p.colLast - p.colFirst + 1) (by omega)
  have hstart : p.lead - p.colFirst < p.colLast - p.colFirst + 1 := by omega
  rw [p.columnOrder_eq_xorSweep, hpower]
  refine ⟨?nodup, fun c => ?mem, ?head, fun hlead => ?ascending, e, hfits, hleast, rfl⟩
  case nodup => exact (xorSweep_nodup _ _ _).map (add_right_injective _)
  case mem =>
    simp only [List.mem_map, mem_xorSweep (hstart.trans_le hfits) hfits]
    constructor
    · rintro ⟨r, hr, rfl⟩
      omega
    · rintro ⟨hfrom, hto⟩
      exact ⟨c - p.colFirst, by omega, by omega⟩
  case head =>
    rw [List.head?_map, xorSweep_head? hstart (Nat.two_pow_pos e), Option.map_some, Nat.add_sub_cancel' hfirst]
  case ascending => rw [hlead, Nat.sub_self, xorSweep_zero hfits]

end Sys2Proof.Machine

/-! # Rereads (R146)

The owner of REREAD reads its slot and its port's queue, and by definition neither changes when the packet leaves the inbound
buffer. So each of its answers is said once, under what makes it, and each outcome of the command is one of them carried through the
taking of the packet. -/

namespace Sys2Proof.Machine

/-! ## What a slot says of a reread -/

/-- Check 2 of R146, from the side that refuses: the bands are judged of a frame with a row count alone. -/
theorem Slot.not_hasTile_iff (x : Slot) (layer band col : Nat) :
    ¬ x.hasTile layer band col = true ↔
      7 < layer ∨ layer ∉ x.geometry.layers ∨ x.geometry.columns (layerSide layer) ≤ col
        ∨ ∃ n, x.rowCount = some n ∧ x.geometry.bands n ≤ band := by
  have hbands : x.isClosed = true ∧ x.bandCount ≤ band ↔ ∃ n, x.rowCount = some n ∧ x.geometry.bands n ≤ band := by
    cases h : x.rowCount <;> simp [Slot.isClosed, Slot.bandCount, h]
  rw [← hbands]
  simp only [Slot.hasTile, Bool.and_eq_true, Bool.or_eq_true, Bool.not_eq_true', decide_eq_true_eq, List.contains_iff_mem,
    not_and_or, not_or, not_le, not_lt, Bool.not_eq_false, or_assoc]

/-- Check 3 of R146, from the side that refuses. -/
theorem Slot.not_mayReread_iff (x : Slot) :
    ¬ x.mayReread = true ↔ ¬ (x.state = .held ∨ x.state = .closed ∧ x.retain = true) ∨ x.releasePending = true := by
  simp only [Slot.mayReread, Bool.and_eq_true, Bool.or_eq_true, Bool.not_eq_true', decide_eq_true_eq, not_and_or,
    Bool.not_eq_false]

/-- The tile of a frame with a row count ends with its band or with the frame. -/
theorem Slot.tileStop_of_rowCount {x : Slot} {n : Nat} (band : Nat) (h : x.rowCount = some n) :
    x.tileStop band = min ((band + 1) * x.geometry.tileHeight) n := by
  simp [Slot.tileStop, h]

/-! ## The owner's answers -/

/-- The entry that a REREAD of a tile of slot i, holding x, queues: no segment of it has been formed. -/
def Slot.rereadEntry (x : Slot) (i layer band col : Nat) : Reread :=
  { slot := i, alloc := x.alloc, frame := x.frame, layer := layer, band := band, col := col, first := band * x.geometry.tileHeight,
    stop := x.tileStop band, next := band * x.geometry.tileHeight, rowsPerSegment := none, isOpen := false }

/-- The effect of a REREAD that passes: the entry at the tail of its port's queue, and one more pending reread in its slot. -/
def State.queueReread (s : State) (p : Port) (e : Reread) : State :=
  (s.setRereads p fun es => es ++ [e]).setSlot e.slot fun y => { y with pendingRereads := y.pendingRereads + 1 }

section Owner

variable {s : State} {p : Port} {c : InPacket} {i : Nat}

theorem rereadOwner_notFound (h : s.lookupHeld (u32 c.payload 0) = none) : rereadOwner p c s = .refuse .notFound := by
  simp only [rereadOwner, h]

variable (hi : s.lookupHeld (u32 c.payload 0) = some i)
include hi

theorem rereadOwner_badValue
    (htile : ¬ (s.slot i).hasTile (byteAt c.payload 4) (u16 c.payload 6) (byteAt c.payload 5) = true) :
    rereadOwner p c s = .refuse .badValue := by
  simp [rereadOwner, hi, htile]

variable (htile : (s.slot i).hasTile (byteAt c.payload 4) (u16 c.payload 6) (byteAt c.payload 5) = true)
include htile

theorem rereadOwner_conflict (hmay : ¬ (s.slot i).mayReread = true) : rereadOwner p c s = .refuse .conflict := by
  simp [rereadOwner, hi, htile, hmay]

variable (hmay : (s.slot i).mayReread = true)
include hmay

theorem rereadOwner_limit (hfull : Config.rereadLimit ≤ (s.dle.rereads.get p).length) :
    rereadOwner p c s = .refuse .limit := by
  simp [rereadOwner, hi, htile, hmay, hfull]

theorem rereadOwner_accept (hroom : (s.dle.rereads.get p).length < Config.rereadLimit) :
    rereadOwner p c s =
      .accept (s.queueReread p ((s.slot i).rereadEntry i (byteAt c.payload 4) (u16 c.payload 6) (byteAt c.payload 5))) [] := by
  simp [rereadOwner, hi, htile, hmay, Nat.not_le.mpr hroom, State.queueReread, Slot.rereadEntry]

end Owner

/-! ## The command -/

section Command

variable {s : State} {p : Port} {c : InPacket} {rest : List InPacket}

/-- REREAD is accepted in every run state and from both ports (10.2), so check 5 of R169 and the ports' privileges let it by. -/
theorem State.firstRefusal_reread (hp : c.passes codeReread 8) : s.firstRefusal p c = none :=
  State.firstRefusal_none (row := ⟨codeReread, 8, .any, true⟩) (by decide) hp (fun _ => rfl) rfl

theorem exec_reread_refuse {result : Result} (h : s.mayTake p c rest) (hp : c.passes codeReread 8)
    (ho : rereadOwner p c (s.took p rest) = .refuse result) :
    exec (.reread p) s = .next ((s.took p rest).refuses p c result) :=
  State.whenPowered_refuse h hp (State.firstRefusal_reread hp) ho

theorem exec_reread_accept {t : State} {record : List Byte} (h : s.mayTake p c rest) (hp : c.passes codeReread 8)
    (ho : rereadOwner p c (s.took p rest) = .accept t record) :
    exec (.reread p) s = .next (t.answered p c record) :=
  State.whenPowered_accept h hp (State.firstRefusal_reread hp) ho

end Command

/-- Settles O29: each outcome is the owner's answer under its check, the checks before it having passed. -/
theorem rereadQueuesATile : Obligations.RereadQueuesATile := by
  intro s p c rest htake hpass
  refine ⟨fun hnone => exec_reread_refuse htake hpass (rereadOwner_notFound hnone), fun i hi => ?_⟩
  intro x layer col band bad conflict
  have hbad : ¬ x.hasTile layer band col = true ↔ bad := x.not_hasTile_iff layer band col
  have hconflict : ¬ x.mayReread = true ↔ conflict := x.not_mayReread_iff
  rw [← hbad, ← hconflict, not_not, not_not]
  refine ⟨fun htile => ?badValue, fun htile hmay => ?conflict, fun htile hmay hfull => ?limit, fun htile hmay hroom => ?queued⟩
  case badValue => exact exec_reread_refuse htake hpass (rereadOwner_badValue hi htile)
  case conflict => exact exec_reread_refuse htake hpass (rereadOwner_conflict hi htile hmay)
  case limit => exact exec_reread_refuse htake hpass (rereadOwner_limit hi htile hmay hfull)
  case queued =>
    refine ⟨x.rereadEntry i layer band col, (s.took p rest).queueReread p (x.rereadEntry i layer band col), ?_, rfl, rfl, rfl, rfl,
      rfl, rfl, rfl, rfl, rfl, rfl, fun n hn => Slot.tileStop_of_rowCount band hn⟩
    exact exec_reread_accept htake hpass (rereadOwner_accept hi htile hmay hroom)

end Sys2Proof.Machine

/-! # IDENTIFY (R178)

"From either port in every run state" is the row of IDENTIFY in the catalogue: a row that port B may send and every run state accepts
leaves checks 4 and 5 of R169 nothing to refuse. What is answered is then the record alone. -/

namespace Sys2Proof.Machine

/-- A command of 10.2 that every run state accepts and both ports may send is refused by none of checks 1 to 5 once its packet passes the
first three (R157, R169). -/
theorem State.firstRefusal_none_of_any {s : State} {p : Port} {c : InPacket} {row : CommandRow} (hrow : row ∈ catalogue)
    (hany : row.acceptedIn = .any) (hports : row.fromB = true) (hp : c.passes row.code row.length) :
    s.firstRefusal p c = none :=
  have haccepts : s.accepts row = true := by rw [State.accepts, hany]
  State.firstRefusal_none hrow hp (fun _ => hports) haccepts

/-- The identity record byte by byte: vendor code 0x0B71, part code 2840, silicon revision 3, 8 lanes, 2 ports, a zero byte, and
2^32 store bytes, each least significant byte first (R178, 12.5). -/
theorem identityRecord_bytes :
    identityRecord = [0x71, 0x0B, 0x18, 0x0B, 3, 8, 2, 0, 0, 0, 0, 0, 1, 0, 0, 0] := by
  decide

/-- Settles O9: no check refuses IDENTIFY, and its owner answers with the identity record and the state as it was. -/
theorem identifyReturnsTheIdentityRecord : Obligations.IdentifyReturnsTheIdentityRecord := by
  intro p s c rest htake hpass
  have hrefused : s.firstRefusal p c = none :=
    State.firstRefusal_none_of_any (row := ⟨codeIdentify, 0, .any, true⟩) (by decide) rfl rfl hpass
  have howner : identifyOwner c (s.took p rest) = .accept (s.took p rest) identityRecord := rfl
  rw [← identityRecord_bytes]
  exact State.whenPowered_accept htake hpass hrefused howner

end Sys2Proof.Machine

/-! # GET_STATS (R185)

The record's length is 4 bytes for each of its 99 counters, counted group by group. The reading is then told apart by the clear flag
alone, as both ports may send GET_STATS in every run state. -/

namespace Sys2Proof.Machine

/-! ## The length of the counters record -/

@[simp] theorem le_length (n v : Nat) : (le n v).length = n := by
  induction n generalizing v with
  | zero => rfl
  | succ n ih => simp [le, ih]

/-- Nine counters of 4 bytes (R61). -/
@[simp] theorem LaneCounters.record_length (c : LaneCounters) : c.record.length = 36 := by simp [LaneCounters.record]

/-- Seven counters of 4 bytes (11.4). -/
@[simp] theorem PositionCounters.record_length (c : PositionCounters) : c.record.length = 28 := by simp [PositionCounters.record]

/-- Eight counters of 4 bytes (11.4). -/
@[simp] theorem FrameCounters.record_length (c : FrameCounters) : c.record.length = 32 := by simp [FrameCounters.record]

/-- Six counters of 4 bytes (11.4). -/
@[simp] theorem PortCounters.record_length (c : PortCounters) : c.record.length = 24 := by simp [PortCounters.record]

/-- Eight equal parts in the order of their numbers take eight times the bytes of one. -/
theorem length_flatMap_toList {α : Type} {n : Nat} (t : Eight α) (f : α → List Byte) (h : ∀ x, (f x).length = n) :
    (t.toList.flatMap f).length = 8 * n := by
  simp only [Eight.toList, List.flatMap_cons, List.flatMap_nil, List.length_append, List.length_nil, h]
  omega

theorem Counters.record_length (c : Counters) : c.record.length = 396 := by
  have hlanes : (c.lanes.toList.flatMap LaneCounters.record).length = 8 * 36 :=
    length_flatMap_toList c.lanes LaneCounters.record LaneCounters.record_length
  simp [Counters.record, hlanes]

/-! ## The owner's answers -/

theorem asBool_eq_none {n : Nat} (h : 2 ≤ n) : asBool n = none := by
  match n, h with
  | n + 2, _ => rfl

section Owner

variable {s : State} {c : InPacket}

theorem getStatsOwner_read (h : byteAt c.payload 0 = 0) : getStatsOwner c s = .accept s s.ntu.counters.record := by
  simp [getStatsOwner, h, asBool]

theorem getStatsOwner_clear (h : byteAt c.payload 0 = 1) :
    getStatsOwner c s = .accept { s with ntu := { s.ntu with counters := Counters.zero } } s.ntu.counters.record := by
  simp [getStatsOwner, h, asBool]

theorem getStatsOwner_badValue (h : 2 ≤ byteAt c.payload 0) : getStatsOwner c s = .refuse .badValue := by
  simp [getStatsOwner, asBool_eq_none h]

end Owner

/-! ## The command -/

/-- Settles O11: no check refuses GET_STATS, so the owner's answer under each value of the clear flag is the whole effect; taking the
packet leaves the Notice Unit alone, so the record is that of the counters before the command. -/
theorem getStatsReadsAndClears : Obligations.GetStatsReadsAndClears := by
  intro p s c rest htake hpass
  have hrefused : s.firstRefusal p c = none :=
    State.firstRefusal_none_of_any (row := ⟨codeGetStats, 1, .any, true⟩) (by decide) rfl rfl hpass
  refine ⟨s.ntu.counters.record_length, fun hread => ?read, fun hclear => ?clear, fun hbad => ?badValue⟩
  case read => exact State.whenPowered_accept htake hpass hrefused (getStatsOwner_read hread)
  case clear => exact State.whenPowered_accept htake hpass hrefused (getStatsOwner_clear hclear)
  case badValue => exact State.whenPowered_refuse htake hpass hrefused (getStatsOwner_badValue hbad)

end Sys2Proof.Machine

/-! # What a step makes before the ports' choices

Every command but the two of power answers the state as it was, or an effect on it followed by the ports' choices (`State.settle`).
`Effect s i u` says that step i makes u of s before those choices, with the condition under which it does; `exec_effect` says that
nothing else happens. What every step keeps is then one case for each effect. -/

namespace Sys2Proof.Machine

/-! ## The commands on packets and their owners -/

/-- The port, the code and the owner of a command on a packet; none for every other step. -/
def ownerOf : Instr → Option (Port × Nat × (InPacket → State → Answer))
  | .identify p => some (p, codeIdentify, identifyOwner)
  | .getStatus p => some (p, codeGetStatus, getStatusOwner)
  | .getStats p => some (p, codeGetStats, getStatsOwner)
  | .getConfig p => some (p, codeGetConfig, getConfigOwner)
  | .setScale p => some (p, codeSetScale, setScaleOwner)
  | .setPhases p => some (p, codeSetPhases, setPhasesOwner)
  | .setLane p => some (p, codeSetLane, setLaneOwner)
  | .setFraming p => some (p, codeSetFraming, setFramingOwner)
  | .setLayout p => some (p, codeSetLayout, setLayoutOwner)
  | .setStore p => some (p, codeSetStore, setStoreOwner)
  | .setRoute p => some (p, codeSetRoute, setRouteOwner)
  | .setPort p => some (p, codeSetPort, setPortOwner)
  | .setNotices p => some (p, codeSetNotices, setNoticesOwner)
  | .runStart p => some (p, codeRunStart, runStartOwner)
  | .runStop p => some (p, codeRunStop, runStopOwner)
  | .reset p => some (p, codeReset, resetOwner)
  | .pause p => some (p, codePause, pauseOwner p)
  | .resume p => some (p, codeResume, resumeOwner p)
  | .revoke p => some (p, codeRevoke, revokeOwner p)
  | .retain p => some (p, codeRetain, retainOwner)
  | .release p => some (p, codeRelease, releaseOwner)
  | .reread p => some (p, codeReread, rereadOwner p)
  | .setLead p => some (p, codeSetLead, setLeadOwner p)
  | .clearNotices p => some (p, codeClearNotices, clearNoticesOwner)
  | .setLoop p => some (p, codeSetLoop, setLoopOwner)
  | _ => none

/-- The command an owner takes is the one its step is on. -/
theorem command_eq_ownerOf (i : Instr) : i.command = (ownerOf i).map fun x => (x.1, x.2.1) := by
  cases i <;> rfl

theorem exec_owner {i : Instr} {p : Port} {code : Nat} {owner : InPacket → State → Answer} (h : ownerOf i = some (p, code, owner))
    (s : State) : exec i s = s.whenPowered fun s => s.command p code owner := by
  cases i <;> simp only [ownerOf, Option.some.injEq, Prod.mk.injEq, reduceCtorEq] at h <;> obtain ⟨rfl, rfl, rfl⟩ := h <;> rfl

theorem exists_owner_of_command {i : Instr} {p : Port} {code : Nat} (h : i.command = some (p, code)) :
    ∃ owner, ownerOf i = some (p, code, owner) := by
  rw [command_eq_ownerOf] at h
  obtain ⟨⟨q, n, owner⟩, ho, he⟩ := Option.map_eq_some_iff.mp h
  obtain ⟨rfl, rfl⟩ := Prod.mk.inj he
  exact ⟨owner, ho⟩

/-! ## The states that steps make -/

/-- A command held in hand, with its reply place reserved, before the ports' choices. -/
def State.heldInHand (t : State) (p : Port) (c : InPacket) : State :=
  let s1 := t.setPort p fun h => { h with replies := h.replies ++ [none] }
  { s1 with rnc := { s1.rnc with inHand := s1.rnc.inHand.set p (some c) } }

/-- An index edge of the chosen polarity taken (R17). -/
def State.indexTaken (s : State) : State :=
  let s1 := s.countPosition fun c => { c with indexEdges := countUp 1 c.indexEdges }
  if s1.rnc.runState = .config then s1
  else { s1 with ptk := { s1.ptk with pendingEdges := satAdd Config.edgeMax 1 s1.ptk.pendingEdges } }

/-- The stall-close timer stopped at its end (R14). -/
def State.stallCloseOver (s : State) (start : Nat) : State :=
  let s1 := s.advanceTo (start + s.ptk.scale.stallCloseS * Config.unitsPerS)
  { s1 with ptk := { s1.ptk with stallCloseTimer := none } }

/-- The strobe outputs low at the end of their pulse (R32). -/
def State.pulseOver (s : State) (t : Nat) : State :=
  let s1 := s.advanceTo t
  { s1 with tru := { s1.tru with strobes := 0, pulseEnd := none } }

/-- The group in progress done at its end (R31). -/
def State.groupOver (s : State) (g : Group) : State :=
  let s1 := s.advanceTo (s.groupTime g g.entries.length)
  { s1 with tru := s1.tru.finishGroup g }

/-- A reply transmitted: its place is freed (R158). -/
def State.replyOut (s : State) (p : Port) (k : Packet) : State :=
  (s.finishTx p k).setPort p fun h => { h with replies := h.replies.drop 1 }

/-- A REST transmitted, before what wakes the port is judged (R163). -/
def State.restOut (s : State) (p : Port) (k : Packet) : State :=
  (s.finishTx p k).setPort p fun h => { h with link := .resting, wakeOwed := false }

/-- What a step makes of a state before the ports' choices, and when it does. -/
inductive Effect (s : State) : Instr → State → Prop where
  | refused {i p c rest} (result : Result) (hi : i.command = some (p, c.kind) ∨ i = .unknownKind p)
      (ht : s.takeable p = some (c, rest)) : Effect s i ((s.took p rest).reply p c result [])
  | accepted {i p code owner c rest t record} (ho : ownerOf i = some (p, code, owner)) (ht : s.takeable p = some (c, rest))
      (hk : c.kind = code) (hr : s.firstRefusal p c = none) (ha : owner c (s.took p rest) = .accept t record) :
      Effect s i (t.reply p c .ok record)
  | held {i p code owner c rest t} (ho : ownerOf i = some (p, code, owner)) (ht : s.takeable p = some (c, rest))
      (hk : c.kind = code) (hr : s.firstRefusal p c = none) (ha : owner c (s.took p rest) = .hold t) :
      Effect s i (t.heldInHand p c)
  | commandReset (h : s.rnc.resetDue = true) : Effect s .commandReset s.commandResetState
  | count (line) : Effect s (.count line) (s.takeCount line)
  | encoderError : Effect s .encoderError s.encoderErrorTaken
  | indexEdge {rising} (h : rising ≠ s.ptk.scale.indexFalling) : Effect s (.indexEdge rising) s.indexTaken
  | indexIgnored {rising} (h : rising = s.ptk.scale.indexFalling) : Effect s (.indexEdge rising) s
  | stall {u} (hm : s.ptk.motion = .moving) (hu : s.ptk.stallTimer = some u) :
      Effect s .stall (s.advanceTo (u + s.ptk.scale.stallMs * Config.unitsPerMs)).enterStalled
  | stallClose {u} (hm : s.ptk.motion = .stalled) (hu : s.ptk.stallCloseTimer = some u) (hc : s.rnc.runState ≠ .config) :
      Effect s .stallCloseExpiry (s.stallCloseOver u).stallClose
  | stallCloseConfig {u} (hm : s.ptk.motion = .stalled) (hu : s.ptk.stallCloseTimer = some u) (hc : s.rnc.runState = .config) :
      Effect s .stallCloseExpiry (s.stallCloseOver u)
  | entryIssue {g} (hg : s.tru.group = some g) (hi : g.issued < g.entries.length) :
      Effect s .entryIssue ((s.advanceTo (s.groupTime g g.issued)).issueNext).progressed
  | strobePulseEnd {u} (hu : s.tru.pulseEnd = some u) : Effect s .strobePulseEnd (s.pulseOver u)
  | groupDone {g} (hg : s.tru.group = some g) (hi : g.entries.length ≤ g.issued) : Effect s .groupDone (s.groupOver g)
  | triggersEnded (hd : s.rnc.runState = .draining) (hg : s.tru.group = none) :
      Effect s .triggersEnded { s with frt := { s.frt with triggersEnded := true } }
  | laneLinkUp (l) : Effect s (.laneLinkUp l) (s.laneUp l)
  | laneLinkLoss (l) : Effect s (.laneLinkLoss l) (s.laneLost l)
  | lanePacketReceived (l bytes) : Effect s (.lanePacketReceived l bytes) (s.receiveLane l bytes).progressed
  | lineTimeout {l q qs} (hq : (s.lanes.get l).queue = q :: qs) :
      Effect s (.lineTimeout l) ((s.advanceTo q.deadline).expireRecords l).progressed
  | placementComplete {l y rest} (hy : (s.lanes.get l).placements = y :: rest) (hin : s.placementOutside l y = false) :
      Effect s (.placementComplete l) (s.finishPlacement l y rest).progressed
  | rewindHoldClear (hh : s.frt.rewindHold = true) (hg : s.tru.group = none) (hs : s.allSettled = true) :
      Effect s .rewindHoldClear { s with frt := { s.frt with rewindHold := false } }
  | closeAtStop (hd : s.rnc.runState = .draining) (he : s.frt.triggersEnded = true) (hs : s.allSettled = true)
      (hm : s.rnc.closeAtStopMade = false) : Effect s .closeAtStop s.stopCloseAll
  | endOfDraining (hd : s.drained = true) : Effect s .endOfDraining s.endRun
  | portLinkUp {p} (hl : (s.ports.get p).link = .down) :
      Effect s (.portLinkUp p) ((s.dropRereads p).setPort p fun h => { h with link := .up })
  | portLinkLoss {p} (hl : (s.ports.get p).link ≠ .down) : Effect s (.portLinkLoss p) (s.portLost p)
  | hostPacketReceived {p} (bytes) (hl : (s.ports.get p).link ≠ .down) : Effect s (.hostPacketReceived p bytes) (s.receiveHost p bytes)
  | replySent {p k} (hx : (s.ports.get p).tx = some { source := .reply, packet := k }) : Effect s (.replySent p) (s.replyOut p k)
  | resetReplySent {k} (hx : s.ports.a.tx = some { source := .reply, packet := k }) (hp : s.rnc.resetPending = true)
      (he : (s.replyOut .a k).ports.a.replies = []) :
      Effect s (.replySent .a) { s.replyOut .a k with rnc := { (s.replyOut .a k).rnc with resetDue := true } }
  | noticeSent {k} (hx : s.ports.a.tx = some { source := .notice, packet := k }) :
      Effect s .noticeSent ((s.finishTx .a k).setPort .a fun h => { h with notices := h.notices.drop 1 })
  | frameOpenSent {p r alloc k} (hx : (s.ports.get p).tx = some { source := .frameOpen r alloc, packet := k }) :
      Effect s (.frameOpenSent p) ((s.finishTx p k).setRecord r alloc fun d => { d with state := .opened, opening := none })
  | tileSegmentSent {p r alloc rows last k} (hx : (s.ports.get p).tx = some { source := .segment r alloc rows last, packet := k }) :
      Effect s (.tileSegmentSent p) ((s.finishTx p k).segmentSent p r alloc rows last)
  | tileAbortSent {p r alloc k} (hx : (s.ports.get p).tx = some { source := .tileAbort r alloc, packet := k }) :
      Effect s (.tileAbortSent p)
        (((s.finishTx p k).setRecord r alloc fun d => { d with tileOpen := false, span := none }).endTile p)
  | frameEndSent {p r alloc revoked k d} (hx : (s.ports.get p).tx = some { source := .frameEnd r alloc revoked, packet := k })
      (hd : (s.finishTx p k).recordOf r alloc = some d) :
      Effect s (.frameEndSent p) ((s.finishTx p k).finalize r d (if revoked then .revoked else .done))
  | frameEndLost {p r alloc revoked k} (hx : (s.ports.get p).tx = some { source := .frameEnd r alloc revoked, packet := k })
      (hd : (s.finishTx p k).recordOf r alloc = none) : Effect s (.frameEndSent p) (s.finishTx p k)
  | rereadSegmentSent {p alloc rows last k} (hx : (s.ports.get p).tx = some { source := .reread alloc rows last, packet := k }) :
      Effect s (.rereadSegmentSent p) ((s.finishTx p k).rereadSent p alloc rows last)
  | stagedPortRecord {p r} (hr : (s.ports.get p).staged = some r) (ht : (s.ports.get p).tile = none) :
      Effect s (.stagedPortRecord p) (((s.portRecordInForce p r).answerHeld p .a).answerHeld p .b)
  | idleTimerExpiry {p u} (hu : (s.ports.get p).idleTimer = some u) :
      Effect s (.idleTimerExpiry p) (s.advanceTo (u + (s.ports.get p).record.restDelay * Config.unitsPerUs))
  | restSentWaking {p k} (hx : (s.ports.get p).tx = some { source := .rest, packet := k }) :
      Effect s (.restSent p) ((s.restOut p k).startWake p)
  | restSentResting {p k} (hx : (s.ports.get p).tx = some { source := .rest, packet := k }) : Effect s (.restSent p) (s.restOut p k)
  | wakeTimerExpiry {p u} (hl : (s.ports.get p).link = .waking) (hu : (s.ports.get p).wakeTimer = some u) :
      Effect s (.wakeTimerExpiry p) ((s.advanceTo (u + Config.wakeUs * Config.unitsPerUs)).setPort p fun h =>
        { h with link := .up, wakeTimer := none })

/-- What `exec` can answer: the state as it was, an effect with the ports' choices after it, or the values of power-up. -/
inductive Answered (s : State) (i : Instr) (t : State) : Prop where
  | same (h : t = s)
  | effect {u : State} {lead : Bool} (hp : s.pwrOk = true) (he : Effect s i u) (h : t = u.settle lead)
  | power {on a b : Bool} (hi : i.isReset = true) (h : t = State.powerUpValues s.pending s.now s.slm.store on a b)

/-! ## The inversion -/

theorem State.whenPowered_next {s t : State} {f : State → State} (h : s.whenPowered f = .next t) :
    t = s ∨ s.pwrOk = true ∧ t = f s := by
  unfold State.whenPowered at h
  split at h
  · next hp => exact .inr ⟨hp, by cases h; rfl⟩
  · cases h; exact .inl rfl

/-- A command on a packet: nothing, a refusal, its owner's effect with the reply, or a command held. -/
theorem Answered.of_command {s t : State} {i : Instr} {p : Port} {code : Nat} {owner : InPacket → State → Answer}
    (ho : ownerOf i = some (p, code, owner)) (h : exec i s = .next t) : Answered s i t := by
  rw [exec_owner ho] at h
  obtain rfl | ⟨hp, rfl⟩ := State.whenPowered_next h
  · exact .same rfl
  rcases s.command_cases p code owner with hs | ⟨c, rest, ht, hk, ⟨result, he⟩ | ⟨hr, ⟨u, record, ha, he⟩ | ⟨u, ha, he⟩⟩⟩
  · exact .same hs
  · exact .effect hp (.refused result (.inl (by rw [command_eq_ownerOf, ho, hk]; rfl)) ht) he
  · exact .effect hp (.accepted ho ht hk (State.took_firstRefusal s p p rest c ▸ hr) ha) he
  · exact .effect hp (.held ho ht hk (State.took_firstRefusal s p p rest c ▸ hr) ha) he

/-- A step that is not a command on a packet, answered under power by one function of the state. -/
theorem Answered.of_powered {s t : State} {i : Instr} {f : State → State} (h : s.whenPowered f = .next t)
    (hf : f s = s ∨ ∃ u lead, Effect s i u ∧ f s = u.settle lead) : Answered s i t := by
  obtain rfl | ⟨hp, rfl⟩ := State.whenPowered_next h
  · exact .same rfl
  obtain hs | ⟨u, lead, he, hu⟩ := hf
  · exact .same hs
  · exact .effect hp he hu

section Meanings

variable {s t : State}

theorem execUnknownKind_answered (p : Port) (h : execUnknownKind p s = .next t) : Answered s (.unknownKind p) t := by
  refine .of_powered h ?_
  split
  · exact .inl rfl
  · next c rest ht =>
    split
    · unfold State.answer
      split
      · exact .inr ⟨_, _, .refused _ (.inr rfl) ht, rfl⟩
      · exact .inr ⟨_, _, .refused _ (.inr rfl) ht, rfl⟩
    · exact .inl rfl

theorem execCommandReset_answered (h : execCommandReset s = .next t) : Answered s .commandReset t := by
  refine .of_powered h ?_
  split
  · next hd => exact .inr ⟨_, _, .commandReset hd, rfl⟩
  · exact .inl rfl

theorem execCount_answered (line : EncLine) (h : execCount line s = .next t) : Answered s (.count line) t := by
  exact .of_powered h (.inr ⟨_, _, .count line, rfl⟩)

theorem execEncoderError_answered (h : execEncoderError s = .next t) : Answered s .encoderError t := by
  exact .of_powered h (.inr ⟨_, _, .encoderError, rfl⟩)

theorem execIndexEdge_answered (rising : Bool) (h : execIndexEdge rising s = .next t) : Answered s (.indexEdge rising) t := by
  refine .of_powered h ?_
  split
  · next hr => exact .inr ⟨_, _, .indexIgnored hr, rfl⟩
  · next hr => exact .inr ⟨_, _, .indexEdge hr, rfl⟩

theorem execStall_answered (h : execStall s = .next t) : Answered s .stall t := by
  refine .of_powered h ?_
  split
  · next hm hu => exact .inr ⟨_, _, .stall hm hu, rfl⟩
  · exact .inl rfl

theorem execStallCloseExpiry_answered (h : execStallCloseExpiry s = .next t) : Answered s .stallCloseExpiry t := by
  refine .of_powered h ?_
  split
  · next u hm hu =>
    refine .inr ?_
    by_cases hc : s.rnc.runState = .config
    · exact ⟨_, _, .stallCloseConfig hm hu hc, congrArg (State.settle · false) (if_pos hc)⟩
    · exact ⟨_, _, .stallClose hm hu hc, congrArg (State.settle · false) (if_neg hc)⟩
  · exact .inl rfl

theorem execEntryIssue_answered (h : execEntryIssue s = .next t) : Answered s .entryIssue t := by
  refine .of_powered h ?_
  split
  · exact .inl rfl
  · next g hg =>
    split
    · next hi => exact .inr ⟨_, _, .entryIssue hg hi, rfl⟩
    · exact .inl rfl

theorem execStrobePulseEnd_answered (h : execStrobePulseEnd s = .next t) : Answered s .strobePulseEnd t := by
  refine .of_powered h ?_
  split
  · exact .inl rfl
  · next u hu => exact .inr ⟨_, _, .strobePulseEnd hu, rfl⟩

theorem execGroupDone_answered (h : execGroupDone s = .next t) : Answered s .groupDone t := by
  refine .of_powered h ?_
  split
  · exact .inl rfl
  · next g hg =>
    split
    · next hi => exact .inr ⟨_, _, .groupDone hg hi, rfl⟩
    · exact .inl rfl

theorem execTriggersEnded_answered (h : execTriggersEnded s = .next t) : Answered s .triggersEnded t := by
  refine .of_powered h ?_
  split
  · next hd => exact .inr ⟨_, _, .triggersEnded hd.1 hd.2, rfl⟩
  · exact .inl rfl

theorem execLaneLinkUp_answered (l : Fin 8) (h : execLaneLinkUp l s = .next t) : Answered s (.laneLinkUp l) t := by
  exact .of_powered h (.inr ⟨_, _, .laneLinkUp l, rfl⟩)

theorem execLaneLinkLoss_answered (l : Fin 8) (h : execLaneLinkLoss l s = .next t) : Answered s (.laneLinkLoss l) t := by
  exact .of_powered h (.inr ⟨_, _, .laneLinkLoss l, rfl⟩)

theorem execLanePacketReceived_answered (l : Fin 8) (bytes : List Byte) (h : execLanePacketReceived l bytes s = .next t) : Answered s (.lanePacketReceived l bytes) t := by
  exact .of_powered h (.inr ⟨_, _, .lanePacketReceived l bytes, rfl⟩)

theorem execLineTimeout_answered (l : Fin 8) (h : execLineTimeout l s = .next t) : Answered s (.lineTimeout l) t := by
  refine .of_powered h ?_
  split
  · exact .inl rfl
  · next q qs hq => exact .inr ⟨_, _, .lineTimeout hq, rfl⟩

theorem execPlacementComplete_answered (l : Fin 8) (h : execPlacementComplete l s = .next t) : Answered s (.placementComplete l) t := by
  unfold execPlacementComplete at h
  split at h
  · cases h; exact .same rfl
  · next y rest hy =>
    split at h
    · cases h
    · next hin =>
      obtain hsame | ⟨hp, ht⟩ := State.whenPowered_next h
      · exact .same hsame
      · have hinside : s.placementOutside l y = false := by simpa [hp] using hin
        exact .effect hp (.placementComplete hy hinside) ht

theorem execRewindHoldClear_answered (h : execRewindHoldClear s = .next t) : Answered s .rewindHoldClear t := by
  refine .of_powered h ?_
  split
  · next hh => exact .inr ⟨_, _, .rewindHoldClear hh.1 hh.2.1 hh.2.2, rfl⟩
  · exact .inl rfl

theorem execCloseAtStop_answered (h : execCloseAtStop s = .next t) : Answered s .closeAtStop t := by
  refine .of_powered h ?_
  split
  · next hc => exact .inr ⟨_, _, .closeAtStop hc.1 hc.2.1 hc.2.2.1 (by simpa using hc.2.2.2), rfl⟩
  · exact .inl rfl

theorem execEndOfDraining_answered (h : execEndOfDraining s = .next t) : Answered s .endOfDraining t := by
  refine .of_powered h ?_
  split
  · next hd => exact .inr ⟨_, _, .endOfDraining hd, rfl⟩
  · exact .inl rfl

theorem execPortLinkUp_answered (p : Port) (h : execPortLinkUp p s = .next t) : Answered s (.portLinkUp p) t := by
  refine .of_powered h ?_
  split
  · next hl => exact .inr ⟨_, _, .portLinkUp hl, rfl⟩
  · exact .inl rfl

theorem execPortLinkLoss_answered (p : Port) (h : execPortLinkLoss p s = .next t) : Answered s (.portLinkLoss p) t := by
  refine .of_powered h ?_
  split
  · exact .inl rfl
  · next hl => exact .inr ⟨_, _, .portLinkLoss hl, rfl⟩

theorem execHostPacketReceived_answered (p : Port) (bytes : List Byte) (h : execHostPacketReceived p bytes s = .next t) : Answered s (.hostPacketReceived p bytes) t := by
  refine .of_powered h ?_
  split
  · exact .inl rfl
  · next hl => exact .inr ⟨_, _, .hostPacketReceived bytes hl, rfl⟩

theorem execReplySent_answered (p : Port) (h : execReplySent p s = .next t) : Answered s (.replySent p) t := by
  refine .of_powered h ?_
  split
  · next k hx =>
    refine .inr ?_
    by_cases hd : p = .a ∧ s.rnc.resetPending = true ∧ (s.replyOut p k).ports.a.replies = []
    · obtain ⟨rfl, hp, he⟩ := hd
      exact ⟨_, _, .resetReplySent hx hp he, congrArg (State.settle · false) (if_pos ⟨rfl, hp, he⟩)⟩
    · exact ⟨_, _, .replySent hx, congrArg (State.settle · false) (if_neg hd)⟩
  · exact .inl rfl

theorem execNoticeSent_answered (h : execNoticeSent s = .next t) : Answered s .noticeSent t := by
  refine .of_powered h ?_
  split
  · next k hx => exact .inr ⟨_, _, .noticeSent hx, rfl⟩
  · exact .inl rfl

theorem execFrameOpenSent_answered (p : Port) (h : execFrameOpenSent p s = .next t) : Answered s (.frameOpenSent p) t := by
  refine .of_powered h ?_
  split
  · next hx => exact .inr ⟨_, _, .frameOpenSent hx, rfl⟩
  · exact .inl rfl

theorem execTileSegmentSent_answered (p : Port) (h : execTileSegmentSent p s = .next t) : Answered s (.tileSegmentSent p) t := by
  refine .of_powered h ?_
  split
  · next hx => exact .inr ⟨_, _, .tileSegmentSent hx, rfl⟩
  · exact .inl rfl

theorem execTileAbortSent_answered (p : Port) (h : execTileAbortSent p s = .next t) : Answered s (.tileAbortSent p) t := by
  refine .of_powered h ?_
  split
  · next hx => exact .inr ⟨_, _, .tileAbortSent hx, rfl⟩
  · exact .inl rfl

theorem execFrameEndSent_answered (p : Port) (h : execFrameEndSent p s = .next t) : Answered s (.frameEndSent p) t := by
  refine .of_powered h ?_
  split
  · next r alloc revoked k hx =>
    dsimp only
    split
    · next d hd => exact .inr ⟨_, _, .frameEndSent hx hd, rfl⟩
    · next hd => exact .inr ⟨_, _, .frameEndLost hx hd, rfl⟩
  · exact .inl rfl

theorem execRereadSegmentSent_answered (p : Port) (h : execRereadSegmentSent p s = .next t) : Answered s (.rereadSegmentSent p) t := by
  refine .of_powered h ?_
  split
  · next hx => exact .inr ⟨_, _, .rereadSegmentSent hx, rfl⟩
  · exact .inl rfl

theorem execStagedPortRecord_answered (p : Port) (h : execStagedPortRecord p s = .next t) : Answered s (.stagedPortRecord p) t := by
  refine .of_powered h ?_
  split
  · next hr ht => exact .inr ⟨_, _, .stagedPortRecord hr ht, rfl⟩
  · exact .inl rfl

theorem execIdleTimerExpiry_answered (p : Port) (h : execIdleTimerExpiry p s = .next t) : Answered s (.idleTimerExpiry p) t := by
  refine .of_powered h ?_
  dsimp only
  split
  · exact .inl rfl
  · next u hu => exact .inr ⟨_, _, .idleTimerExpiry hu, rfl⟩

theorem execRestSent_answered (p : Port) (h : execRestSent p s = .next t) : Answered s (.restSent p) t := by
  refine .of_powered h ?_
  split
  · next k hx =>
    dsimp only
    split
    · exact .inr ⟨_, _, .restSentWaking hx, rfl⟩
    · exact .inr ⟨_, _, .restSentResting hx, rfl⟩
  · exact .inl rfl

theorem execWakeTimerExpiry_answered (p : Port) (h : execWakeTimerExpiry p s = .next t) : Answered s (.wakeTimerExpiry p) t := by
  refine .of_powered h ?_
  split
  · next u hl hu => exact .inr ⟨_, _, .wakeTimerExpiry hl hu, rfl⟩
  · exact .inl rfl

end Meanings

theorem exec_answered {i : Instr} {s t : State} (h : exec i s = .next t) : Answered s i t := by
  cases i with
  | powerUp a b => cases h; exact .power rfl rfl
  | pwrOkLow => cases h; exact .power rfl rfl
  | unknownKind p => exact execUnknownKind_answered p h
  | commandReset => exact execCommandReset_answered h
  | count line => exact execCount_answered line h
  | encoderError => exact execEncoderError_answered h
  | indexEdge rising => exact execIndexEdge_answered rising h
  | stall => exact execStall_answered h
  | stallCloseExpiry => exact execStallCloseExpiry_answered h
  | entryIssue => exact execEntryIssue_answered h
  | strobePulseEnd => exact execStrobePulseEnd_answered h
  | groupDone => exact execGroupDone_answered h
  | triggersEnded => exact execTriggersEnded_answered h
  | laneLinkUp l => exact execLaneLinkUp_answered l h
  | laneLinkLoss l => exact execLaneLinkLoss_answered l h
  | lanePacketReceived l bytes => exact execLanePacketReceived_answered l bytes h
  | lineTimeout l => exact execLineTimeout_answered l h
  | placementComplete l => exact execPlacementComplete_answered l h
  | rewindHoldClear => exact execRewindHoldClear_answered h
  | closeAtStop => exact execCloseAtStop_answered h
  | endOfDraining => exact execEndOfDraining_answered h
  | portLinkUp p => exact execPortLinkUp_answered p h
  | portLinkLoss p => exact execPortLinkLoss_answered p h
  | hostPacketReceived p bytes => exact execHostPacketReceived_answered p bytes h
  | replySent p => exact execReplySent_answered p h
  | noticeSent => exact execNoticeSent_answered h
  | frameOpenSent p => exact execFrameOpenSent_answered p h
  | tileSegmentSent p => exact execTileSegmentSent_answered p h
  | tileAbortSent p => exact execTileAbortSent_answered p h
  | frameEndSent p => exact execFrameEndSent_answered p h
  | rereadSegmentSent p => exact execRereadSegmentSent_answered p h
  | stagedPortRecord p => exact execStagedPortRecord_answered p h
  | idleTimerExpiry p => exact execIdleTimerExpiry_answered p h
  | restSent p => exact execRestSent_answered p h
  | wakeTimerExpiry p => exact execWakeTimerExpiry_answered p h
  | _ => exact .of_command rfl h

/-- The one reset with an effect of its own is COMMAND_RESET. -/
theorem Effect.of_isReset {s u : State} {i : Instr} (h : Effect s i u) (hi : i.isReset = true) :
    i = .commandReset ∧ u = s.commandResetState := by
  cases h <;> simp only [Instr.isReset, Bool.false_eq_true] at hi
  case refused hc => cases i <;> simp [Instr.command] at hi hc
  case accepted ho => cases i <;> simp [ownerOf] at hi ho
  case held ho => cases i <;> simp [ownerOf] at hi ho
  case commandReset => exact ⟨rfl, rfl⟩

end Sys2Proof.Machine

/-! # What an accepted command does

`Accepts s c i t` says that the owner of the command i takes the packet c and makes t of s. -/

namespace Sys2Proof.Machine

/-- What the owners of the commands make of a state (10.2). -/
inductive Accepts (s : State) (c : InPacket) : Instr → State → Prop where
  | reads {i} : Accepts s c i s
  | cleared {p} : Accepts s c (.getStats p) { s with ntu := { s.ntu with counters := Counters.zero } }
  | scale {p} (r) (hr : readScale c.payload = some r) (hle : r.step ≤ r.pitch) : Accepts s c (.setScale p) (s.applyScale r)
  | phases {p} (table loop spacing) (hr : readPhases c.payload = some (table, loop, spacing)) (hok : loopOk table loop spacing = true) :
      Accepts s c (.setPhases p) { s with tru := { s.tru with
        table := table, loop := loop, spacing := spacing, pointer := loop.first, skipped := 0, staged := none } }
  | lane {p} (l r) (hr : readLane c.payload = some (l, r)) :
      Accepts s c (.setLane p) (s.setLane l fun n => { n with record := r, state := laneStateAfter n.state r.enable n.linkUp })
  | framing {p} (r) (hr : readFraming c.payload = some r) : Accepts s c (.setFraming p) { s with frt := { s.frt with record := r } }
  | layout {p} (y) (hr : readLayout c.payload = some y) : Accepts s c (.setLayout p) { s with layout := y }
  | store {p} (r) (hr : readStore c.payload = some r) :
      Accepts s c (.setStore p) { s with slm := { s.slm with record := r, slots := List.replicate r.count Slot.empty } }
  | route {p} (n r) (hr : readRoute c.payload = some (n, r)) :
      Accepts s c (.setRoute p) { s with dle := { s.dle with routes := s.dle.routes.set n r } }
  | port {p} (q r) (hr : readPort c.payload = some (q, r)) (ht : (s.ports.get q).tile = none) :
      Accepts s c (.setPort p) (s.portRecordInForce q r)
  | notices {p} : Accepts s c (.setNotices p) { s with ntu := { s.ntu with enable := BitVec.ofNat 16 (u16 c.payload 0) } }
  | runStart {p} (hok : s.runStartOk = true) : Accepts s c (.runStart p) s.startRun
  | runStop {p} : Accepts s c (.runStop p) s.stopRun
  | reset {p} : Accepts s c (.reset p) { s with rnc := { s.rnc with resetPending := true } }
  | pause {p} (named : List (Fin 8)) (hn : named = s.namedRoutes p (byteAt c.payload 0)) :
      Accepts s c (.pause p)
        (named.foldl State.takeBackOpen { s with dle := { s.dle with paused := s.dle.paused ||| routeMask named } })
  | resume {p} : Accepts s c (.resume p)
      { s with dle := { s.dle with paused := s.dle.paused &&& ~~~ routeMask (s.namedRoutes p (byteAt c.payload 0)) } }
  | lead {p} (r lead) (hr : readLead c.payload = some (r, lead)) (hp : p = .a ∨ (s.dle.routes.get r).port = .b) :
      Accepts s c (.setLead p)
        { s with dle := { s.dle with routes := s.dle.routes.set r { s.dle.routes.get r with lead := lead } } }
  | revoke {p} (i) (hi : s.lookupCapture (u32 c.payload 0) = some i) :
      Accepts s c (.revoke p) ((s.namedRoutes p (byteAt c.payload 4)).foldl (fun t r => t.revokeOn (s.slot i).alloc r) s)
  | retain {p} (i) (hi : s.lookupCapture (u32 c.payload 0) = some i) (hs : (s.slot i).state ≠ .held) :
      Accepts s c (.retain p) (s.setSlot i fun x => { x with retain := true })
  | releaseOpen {p} (i) (hi : s.lookupHeld (u32 c.payload 0) = some i) (hs : (s.slot i).state = .opened) :
      Accepts s c (.release p) (s.setSlot i fun x => { x with retain := false })
  | releaseClosed {p} (i) (hi : s.lookupHeld (u32 c.payload 0) = some i) (hs : (s.slot i).state = .closed) :
      Accepts s c (.release p) ((s.setSlot i fun x => { x with retain := false }).freeingTest i)
  | releaseHeld {p} (i) (hi : s.lookupHeld (u32 c.payload 0) = some i) (hs : (s.slot i).state = .held)
      (hr : (s.slot i).pendingRereads = 0) : Accepts s c (.release p) (s.freeSlot i)
  | releaseWaits {p} (i) (hi : s.lookupHeld (u32 c.payload 0) = some i) (hs : (s.slot i).state = .held) :
      Accepts s c (.release p) (s.setSlot i fun x => { x with releasePending := true })
  | reread {p} (i layer band col) (hi : s.lookupHeld (u32 c.payload 0) = some i)
      (hroom : (s.dle.rereads.get p).length < Config.rereadLimit) :
      Accepts s c (.reread p) (s.queueReread p ((s.slot i).rereadEntry i layer band col))
  | clearNotices {p} : Accepts s c (.clearNotices p)
      { s with ntu := { s.ntu with pending := s.ntu.pending &&& ~~~ BitVec.ofNat 16 (u16 c.payload 0) } }
  | loop {p} (b) (hok : loopOk s.tru.table b s.tru.spacing = true) (hc : s.rnc.runState = .config) :
      Accepts s c (.setLoop p) { s with tru := { s.tru with loop := b, pointer := b.first } }
  | loopStaged {p} (b) (hok : loopOk s.tru.table b s.tru.spacing = true) (hc : s.rnc.runState ≠ .config) :
      Accepts s c (.setLoop p) { s with tru := { s.tru with staged := some b } }

section Owners

variable {s t : State} {c : InPacket} {p : Port} {record : List Byte}

theorem getStatsOwner_accept (h : getStatsOwner c s = .accept t record) : Accepts s c (.getStats p) t := by
  unfold getStatsOwner at h
  split at h
  · cases h
  · cases h
    split
    · exact .cleared
    · exact .reads

theorem getConfigOwner_accept (h : getConfigOwner c s = .accept t record) : Accepts s c (.getConfig p) t := by
  unfold getConfigOwner at h
  split at h
  · cases h
  · cases h; exact .reads

theorem setScaleOwner_accept (h : setScaleOwner c s = .accept t record) : Accepts s c (.setScale p) t := by
  unfold setScaleOwner at h
  split at h
  · cases h
  · next r hr =>
    split at h
    · cases h
    · next hle => cases h; exact .scale r hr (Nat.not_lt.mp hle)

theorem setPhasesOwner_accept (h : setPhasesOwner c s = .accept t record) : Accepts s c (.setPhases p) t := by
  unfold setPhasesOwner at h
  split at h
  · cases h
  · next hr =>
    split at h
    · next hok => cases h; exact .phases _ _ _ hr hok
    · cases h

theorem setLaneOwner_accept (h : setLaneOwner c s = .accept t record) : Accepts s c (.setLane p) t := by
  unfold setLaneOwner at h
  split at h
  · cases h
  · next hr =>
    split at h
    · cases h
    · cases h; exact .lane _ _ hr

theorem setFramingOwner_accept (h : setFramingOwner c s = .accept t record) : Accepts s c (.setFraming p) t := by
  unfold setFramingOwner at h
  split at h
  · cases h
  · next hr =>
    split at h
    · cases h
    · cases h; exact .framing _ hr

theorem setLayoutOwner_accept (h : setLayoutOwner c s = .accept t record) : Accepts s c (.setLayout p) t := by
  unfold setLayoutOwner at h
  split at h
  · cases h
  · next hr =>
    split at h
    · cases h; exact .layout _ hr
    · cases h

theorem setStoreOwner_accept (h : setStoreOwner c s = .accept t record) : Accepts s c (.setStore p) t := by
  unfold setStoreOwner at h
  split at h
  · cases h
  · next hr => cases h; exact .store _ hr

theorem setRouteOwner_accept (h : setRouteOwner c s = .accept t record) : Accepts s c (.setRoute p) t := by
  unfold setRouteOwner at h
  split at h
  · cases h
  · next hr =>
    split at h
    · cases h
    · cases h; exact .route _ _ hr

theorem setPortOwner_accept (h : setPortOwner c s = .accept t record) : Accepts s c (.setPort p) t := by
  unfold setPortOwner at h
  split at h
  · cases h
  · next hr =>
    split at h
    · cases h
    · split at h
      · next ht => cases h; exact .port _ _ hr ht
      · cases h

theorem runStartOwner_accept (h : runStartOwner c s = .accept t record) : Accepts s c (.runStart p) t := by
  unfold runStartOwner at h
  split at h
  · next hok => cases h; exact .runStart hok
  · cases h

theorem setLeadOwner_accept (h : setLeadOwner p c s = .accept t record) : Accepts s c (.setLead p) t := by
  unfold setLeadOwner at h
  split at h
  · cases h
  · next hr =>
    split at h
    · next hp => cases h; exact .lead _ _ hr hp
    · cases h; exact .reads

theorem revokeOwner_accept (h : revokeOwner p c s = .accept t record) : Accepts s c (.revoke p) t := by
  unfold revokeOwner at h
  split at h
  · cases h
  · next hi => cases h; exact .revoke _ hi

theorem retainOwner_accept (h : retainOwner c s = .accept t record) : Accepts s c (.retain p) t := by
  unfold retainOwner at h
  split at h
  · cases h
  · next i hi =>
    split at h
    · cases h; exact .reads
    · next hs =>
      split at h
      · cases h
      · cases h; exact .retain i hi fun hheld => hs (.inl hheld)

theorem releaseOwner_accept (h : releaseOwner c s = .accept t record) : Accepts s c (.release p) t := by
  unfold releaseOwner at h
  split at h
  · cases h
  · next i hi =>
    split at h
    · cases h; exact .reads
    · next hs => cases h; exact .releaseOpen i hi hs
    · next hs => cases h; exact .releaseClosed i hi hs
    · next hs =>
      split at h
      · next hr => cases h; exact .releaseHeld i hi hs hr
      · cases h; exact .releaseWaits i hi hs

theorem rereadOwner_accepts (h : rereadOwner p c s = .accept t record) : Accepts s c (.reread p) t := by
  unfold rereadOwner at h
  split at h
  · cases h
  · next i hi =>
    dsimp only at h
    split at h
    · cases h
    · split at h
      · cases h
      · split at h
        · cases h
        · next hroom => cases h; exact .reread i _ _ _ hi (Nat.not_le.mp hroom)

theorem setLoopOwner_accept (h : setLoopOwner c s = .accept t record) : Accepts s c (.setLoop p) t := by
  unfold setLoopOwner at h
  split at h
  · cases h
  · next b hb =>
    split at h
    · cases h
    · next hok =>
      have hok : loopOk s.tru.table b s.tru.spacing = true := by simpa using hok
      split at h
      · next hc => cases h; exact .loop b hok hc
      · next hc =>
        split at h
        · cases h
        · cases h; exact .loopStaged b hok hc

/-- The one command that can be held is SET_PORT, while its port has a tile in progress (R162). -/
theorem setPortOwner_hold (h : setPortOwner c s = .hold t) :
    ∃ q r, readPort c.payload = some (q, r) ∧ (s.ports.get q).tile ≠ none
      ∧ t = s.setPort q fun h => { h with staged := some r } := by
  unfold setPortOwner at h
  split at h
  · cases h
  · next q r hr =>
    split at h
    · cases h
    · split at h
      · cases h
      · next ht => cases h; exact ⟨q, r, hr, ht, rfl⟩

end Owners

theorem ownerOf_accept {s t : State} {i : Instr} {p : Port} {code : Nat} {owner : InPacket → State → Answer} {c : InPacket}
    {record : List Byte} (ho : ownerOf i = some (p, code, owner)) (ha : owner c s = .accept t record) : Accepts s c i t := by
  cases i <;> simp only [ownerOf, Option.some.injEq, Prod.mk.injEq, reduceCtorEq] at ho <;> obtain ⟨rfl, rfl, rfl⟩ := ho
  case identify | getStatus => cases ha; exact .reads
  case getStats => exact getStatsOwner_accept ha
  case getConfig => exact getConfigOwner_accept ha
  case setScale => exact setScaleOwner_accept ha
  case setPhases => exact setPhasesOwner_accept ha
  case setLane => exact setLaneOwner_accept ha
  case setFraming => exact setFramingOwner_accept ha
  case setLayout => exact setLayoutOwner_accept ha
  case setStore => exact setStoreOwner_accept ha
  case setRoute => exact setRouteOwner_accept ha
  case setPort => exact setPortOwner_accept ha
  case setNotices => cases ha; exact .notices
  case runStart => exact runStartOwner_accept ha
  case runStop => cases ha; exact .runStop
  case reset => cases ha; exact .reset
  case pause => cases ha; exact .pause _ rfl
  case resume => cases ha; exact .resume
  case revoke => exact revokeOwner_accept ha
  case retain => exact retainOwner_accept ha
  case release => exact releaseOwner_accept ha
  case reread => exact rereadOwner_accepts ha
  case setLead => exact setLeadOwner_accept ha
  case clearNotices => cases ha; exact .clearNotices
  case setLoop => exact setLoopOwner_accept ha

/-- The one owner that holds a command is that of SET_PORT. -/
theorem ownerOf_hold {s t : State} {i : Instr} {p : Port} {code : Nat} {owner : InPacket → State → Answer} {c : InPacket}
    (ho : ownerOf i = some (p, code, owner)) (ha : owner c s = .hold t) :
    i = .setPort p ∧ ∃ q r, readPort c.payload = some (q, r) ∧ (s.ports.get q).tile ≠ none
      ∧ t = s.setPort q fun h => { h with staged := some r } := by
  cases i <;> simp only [ownerOf, Option.some.injEq, Prod.mk.injEq, reduceCtorEq] at ho <;> obtain ⟨rfl, rfl, rfl⟩ := ho
  case setPort => exact ⟨rfl, setPortOwner_hold ha⟩
  all_goals
    simp only [identifyOwner, getStatusOwner, getStatsOwner, getConfigOwner, setScaleOwner, setPhasesOwner, setLaneOwner,
      setFramingOwner, setLayoutOwner, setStoreOwner, setRouteOwner, setNoticesOwner, runStartOwner, runStopOwner, resetOwner,
      pauseOwner, resumeOwner, revokeOwner, retainOwner, releaseOwner, rereadOwner, setLeadOwner, clearNoticesOwner,
      setLoopOwner] at ha
    repeat' split at ha
    all_goals cases ha

/-! ## What passing checks 1 to 5 says -/

theorem State.row_of_firstRefusal_none {s : State} {p : Port} {c : InPacket} (h : s.firstRefusal p c = none) :
    ∃ row, commandRow c.kind = some row ∧ c.check ≠ .fail ∧ c.length = row.length ∧ (p = .b → row.fromB = true)
      ∧ s.accepts row = true := by
  unfold State.firstRefusal at h
  split at h
  · cases h
  · next hcheck =>
    split at h
    · cases h
    · next row hrow =>
      split at h
      · cases h
      · next hlength =>
        split at h
        · cases h
        · next hport =>
          split at h
          · cases h
          · next haccepts =>
            exact ⟨row, hrow, hcheck, not_not.mp hlength, fun hb => not_not.mp fun hf => hport ⟨hb, hf⟩, not_not.mp haccepts⟩

/-- A command that port A alone may send did not come from port B (R157). -/
theorem State.not_b_of_firstRefusal_none {s : State} {p : Port} {c : InPacket} (h : s.firstRefusal p c = none)
    (hk : c.kind ∈ deniedFromB) : p = .a := by
  obtain ⟨row, hrow, -, -, hport, -⟩ := s.row_of_firstRefusal_none h
  have hdenied : ∀ k ∈ deniedFromB, (commandRow k).all fun row => !row.fromB := by decide
  cases p with
  | a => rfl
  | b =>
    have hfromB := hdenied _ hk
    rw [hrow] at hfromB
    simp [hport rfl] at hfromB

/-- A setup command but SET_PORT and SET_NOTICES, or a RUN_START, is accepted in CONFIG alone (10.2). -/
theorem State.config_of_firstRefusal_none {s : State} {p : Port} {c : InPacket} (h : s.firstRefusal p c = none)
    (hk : c.kind ∈ configCodes) : s.rnc.runState = .config := by
  obtain ⟨row, hrow, -, -, -, haccepts⟩ := s.row_of_firstRefusal_none h
  have hconfig : ∀ k ∈ configCodes, (commandRow k).all fun row => row.acceptedIn = .config := by decide
  have hrowIn := hconfig _ hk
  rw [hrow] at hrowIn
  have hrowIn : row.acceptedIn = .config := by simpa using hrowIn
  simp only [State.accepts, hrowIn, Bool.and_eq_true, decide_eq_true_eq] at haccepts
  exact haccepts.1

/-- RUN_STOP is accepted in RUNNING alone (10.2). -/
theorem State.running_of_firstRefusal_none {s : State} {p : Port} {c : InPacket} (h : s.firstRefusal p c = none)
    (hk : c.kind = codeRunStop) : s.rnc.runState = .running := by
  obtain ⟨row, hrow, -, -, -, haccepts⟩ := s.row_of_firstRefusal_none h
  have hrun : commandRow codeRunStop = some ⟨codeRunStop, 0, .running, false⟩ := by decide
  rw [hk, hrun, Option.some.injEq] at hrow
  subst hrow
  simpa [State.accepts] using haccepts

end Sys2Proof.Machine

/-! # The run state (R171) -/

namespace Sys2Proof.Machine

/-! ## The Run Controller's own operations -/

theorem State.enterRunState_runState (s : State) (r : RunState) : (s.enterRunState r).rnc.runState = r := by
  simp [State.enterRunState]

theorem State.enterRunState_pending (s : State) (r : RunState) : maskHas (s.enterRunState r).ntu.pending .runState = true :=
  State.maskHas_raise _ _ _ _ _

theorem State.startRun_runState (s : State) :
    s.startRun.rnc.runState = .running ∧ maskHas s.startRun.ntu.pending .runState = true :=
  ⟨State.enterRunState_runState _ _, State.enterRunState_pending _ _⟩

theorem State.endRun_runState (s : State) :
    s.endRun.rnc.runState = .config ∧ maskHas s.endRun.ntu.pending .runState = true :=
  ⟨State.enterRunState_runState _ _, State.enterRunState_pending _ _⟩

/-- The state at RUN_STOP, before the PENDING records of DOWN ports are SKIPPED. -/
def State.stopped (s : State) : State :=
  State.enterRunState
    { s with
      frt := { s.frt with stopTick := some s.ptk.high, triggersEnded := false },
      rnc := { s.rnc with closeAtStopMade := false } } .draining

/-- What RUN_STOP does to the routes of one port (R150). -/
def State.skipIfDown (s : State) (p : Port) : State := if (s.ports.get p).link = .down then s.skipPending p else s

theorem State.stopRun_eq (s : State) : s.stopRun = (s.stopped.skipIfDown .a).skipIfDown .b := rfl

@[simp] theorem State.skipIfDown_frame (s : State) (p : Port) :
    (s.skipIfDown p).pending = s.pending ∧ (s.skipIfDown p).now = s.now ∧ (s.skipIfDown p).pwrOk = s.pwrOk ∧
    (s.skipIfDown p).ptk = s.ptk ∧ (s.skipIfDown p).tru = s.tru ∧ (s.skipIfDown p).lanes = s.lanes ∧
    (s.skipIfDown p).frt = s.frt ∧ (s.skipIfDown p).slm.record = s.slm.record ∧
    (s.skipIfDown p).slm.allocCounter = s.slm.allocCounter ∧ (s.skipIfDown p).slm.store = s.slm.store ∧
    (s.skipIfDown p).layout = s.layout ∧ (s.skipIfDown p).dle.routes = s.dle.routes ∧
    (s.skipIfDown p).dle.paused = s.dle.paused ∧ (s.skipIfDown p).dle.rereads = s.dle.rereads ∧
    (s.skipIfDown p).ports = s.ports ∧ (s.skipIfDown p).rnc = s.rnc ∧ (s.skipIfDown p).ntu = s.ntu := by
  unfold State.skipIfDown; split <;> simp

theorem State.stopRun_runState (s : State) :
    s.stopRun.rnc.runState = .draining ∧ maskHas s.stopRun.ntu.pending .runState = true := by
  simp [State.stopRun_eq, State.stopped, State.enterRunState_runState, State.enterRunState_pending]

/-! ## The run state over an effect -/

theorem Accepts.runState {s t : State} {c : InPacket} {i : Instr} (h : Accepts s c i t) :
    t.rnc.runState = s.rnc.runState
      ∨ ((∃ p, i = .runStart p) ∧ t.rnc.runState = .running ∨ (∃ p, i = .runStop p) ∧ t.rnc.runState = .draining)
        ∧ maskHas t.ntu.pending .runState = true := by
  cases h
  case runStart => exact .inr ⟨.inl ⟨⟨_, rfl⟩, s.startRun_runState.1⟩, s.startRun_runState.2⟩
  case runStop => exact .inr ⟨.inr ⟨⟨_, rfl⟩, s.stopRun_runState.1⟩, s.stopRun_runState.2⟩
  all_goals exact .inl (by simp [State.queueReread])

@[simp] theorem State.stopCloseAll_runState (s : State) : s.stopCloseAll.rnc.runState = s.rnc.runState := by
  have h := foldl_keeps State.rnc State.stopClose (by simp) s.frt.openList s
  simp [State.stopCloseAll, h]

@[simp] theorem State.answerHeld_runState (s : State) (p q : Port) : (s.answerHeld p q).rnc.runState = s.rnc.runState := by
  unfold State.answerHeld
  (repeat' split) <;> simp

@[simp] theorem State.indexTaken_rnc (s : State) : s.indexTaken.rnc = s.rnc := by
  unfold State.indexTaken
  dsimp only
  split <;> simp

/-- The moves of the run state that a step but a reset can make, with what each needs and raises (R171). -/
def RunStateMoves (i : Instr) (s t : State) : Prop :=
  (i = .runStart .a ∧ s.rnc.runState = .config ∧ t.rnc.runState = .running
      ∨ i = .runStop .a ∧ s.rnc.runState = .running ∧ t.rnc.runState = .draining
      ∨ i = .endOfDraining ∧ s.rnc.runState = .draining ∧ t.rnc.runState = .config)
    ∧ maskHas t.ntu.pending .runState = true

theorem Effect.runState {s u : State} {i : Instr} (h : Effect s i u) (hi : i.isReset = false) :
    u.rnc.runState = s.rnc.runState ∨ RunStateMoves i s u := by
  cases h
  case accepted p code owner c rest t record ht hk hr ha ho =>
    rcases (ownerOf_accept ho ha).runState with hsame | ⟨⟨⟨q, rfl⟩, hrun⟩ | ⟨⟨q, rfl⟩, hrun⟩, hraised⟩
    · exact .inl (by simp [hsame])
    · obtain ⟨rfl, rfl, -⟩ : q = p ∧ codeRunStart = code ∧ _ := by simpa [ownerOf] using ho
      obtain rfl := s.not_b_of_firstRefusal_none hr (hk ▸ by decide)
      have hconfig := s.config_of_firstRefusal_none hr (hk ▸ by decide)
      exact .inr ⟨.inl ⟨rfl, hconfig, by simp [hrun]⟩, by simp [hraised]⟩
    · obtain ⟨rfl, rfl, -⟩ : q = p ∧ codeRunStop = code ∧ _ := by simpa [ownerOf] using ho
      obtain rfl := s.not_b_of_firstRefusal_none hr (hk ▸ by decide)
      exact .inr ⟨.inr (.inl ⟨rfl, s.running_of_firstRefusal_none hr hk, by simp [hrun]⟩), by simp [hraised]⟩
  case held ha ho =>
    obtain ⟨-, q, r, -, -, rfl⟩ := ownerOf_hold ho ha
    exact .inl (by simp [State.heldInHand])
  case endOfDraining hd =>
    have hdraining : s.rnc.runState = .draining := by
      simp only [State.drained, Bool.and_eq_true, decide_eq_true_eq] at hd
      exact hd.1.1
    exact .inr ⟨.inr (.inr ⟨rfl, hdraining, s.endRun_runState.1⟩), s.endRun_runState.2⟩
  case commandReset => simp [Instr.isReset] at hi
  all_goals exact .inl (by simp [State.encoderErrorTaken, State.stallCloseOver, State.pulseOver, State.groupOver, State.replyOut,
    State.restOut])

/-- Settles O58: over the effects, only an accepted RUN_START or RUN_STOP, the end of draining and a reset touch the run state. -/
theorem runStateMovesOnlyAsTheTableSays : Obligations.RunStateMovesOnlyAsTheTableSays := by
  intro i s t h hmoved
  cases hreset : i.isReset
  case true =>
    cases exec_answered h with
    | same h => exact absurd (h ▸ rfl) hmoved
    | power _ h => exact .inr (.inr (.inr ⟨rfl, h ▸ rfl⟩))
    | effect _ he h =>
      obtain ⟨rfl, rfl⟩ := he.of_isReset hreset
      exact .inr (.inr (.inr ⟨rfl, by rw [h]; simp only [State.settle_frame]; rfl⟩))
  case false =>
    cases exec_answered h with
    | same h => exact absurd (h ▸ rfl) hmoved
    | power hi _ => simp [hreset] at hi
    | effect _ he h =>
      simp only [h, State.settle_frame] at hmoved ⊢
      rcases he.runState hreset with hsame | ⟨hstart | hstop | hend, hraised⟩
      · exact absurd hsame hmoved
      · exact .inl ⟨hstart.1, hstart.2.1, hstart.2.2, hraised⟩
      · exact .inr (.inl ⟨hstop.1, hstop.2.1, hstop.2.2, hraised⟩)
      · exact .inr (.inr (.inl ⟨hend.1, hend.2.1, hend.2.2, hraised⟩))

end Sys2Proof.Machine

/-! # Position and travel (R3 to R11) -/

namespace Sys2Proof.Machine

/-! ## A count, case by case -/

/-- The state once a count has passed the decoder and the motion logic (R3, R12, R13). -/
def State.afterMotion (s : State) (line : EncLine) : State := State.moved { s with ptk := s.ptk.decode line }

theorem State.takeCount_eq (s : State) (line : EncLine) :
    s.takeCount line =
      if s.ptk.countForward line then (s.afterMotion line).forwardCount else (s.afterMotion line).reverseCount := rfl

theorem State.moved_ptk (s : State) :
    s.moved.ptk = { s.ptk with
      motion := .moving, stallTimer := some s.now,
      stallCloseTimer := if s.ptk.motion = .stalled then none else s.ptk.stallCloseTimer } := by
  unfold State.moved
  split
  · next h => rw [← h]; simp [h]
  · next h => simp [h]

theorem State.afterMotion_ptk (s : State) (line : EncLine) :
    (s.afterMotion line).ptk = { s.ptk.decode line with
      motion := .moving, stallTimer := some s.now,
      stallCloseTimer := if s.ptk.motion = .stalled then none else s.ptk.stallCloseTimer } := State.moved_ptk _

@[simp] theorem State.afterMotion_frame (s : State) (line : EncLine) :
    (s.afterMotion line).pending = s.pending ∧ (s.afterMotion line).now = s.now ∧ (s.afterMotion line).pwrOk = s.pwrOk ∧
    (s.afterMotion line).tru = s.tru ∧ (s.afterMotion line).lanes = s.lanes ∧ (s.afterMotion line).frt = s.frt ∧
    (s.afterMotion line).slm = s.slm ∧ (s.afterMotion line).layout = s.layout ∧ (s.afterMotion line).dle = s.dle ∧
    (s.afterMotion line).rnc = s.rnc ∧ (s.afterMotion line).ntu.enable = s.ntu.enable ∧
    (s.afterMotion line).ntu.counters = s.ntu.counters := by
  simp [State.afterMotion]

/-- A line pitch carried from A into T (R5). -/
def State.carried (s : State) : State :=
  { s with ptk := { s.ptk with acc := s.ptk.acc + s.ptk.scale.step - s.ptk.scale.pitch, tick := s.ptk.tick + 1 } }

/-- A line pitch borrowed by A from T (R6). -/
def State.borrowed (s : State) : State :=
  { s with ptk := { s.ptk with acc := s.ptk.acc + s.ptk.scale.pitch - s.ptk.scale.step, tick := s.ptk.tick - 1 } }

/-- What a forward count can do (R5, R7, R9). -/
theorem State.forwardCount_cases (s : State) :
    (s.ptk.acc + s.ptk.scale.step < s.ptk.scale.pitch
        ∧ s.forwardCount = { s with ptk := { s.ptk with acc := s.ptk.acc + s.ptk.scale.step } })
      ∨ (s.ptk.scale.pitch ≤ s.ptk.acc + s.ptk.scale.step ∧ Config.tickMax < s.ptk.tick + 1 ∧ s.forwardCount = s.encoderErrorCounted)
      ∨ (s.ptk.scale.pitch ≤ s.ptk.acc + s.ptk.scale.step ∧ s.ptk.tick + 1 ≤ Config.tickMax
          ∧ (s.ptk.tick + 1 ≤ s.ptk.high ∧ s.forwardCount = s.carried
            ∨ s.ptk.high < s.ptk.tick + 1 ∧ s.forwardCount = s.carried.emitTick)) := by
  unfold State.forwardCount
  dsimp only
  split
  · next h => exact .inl ⟨h, rfl⟩
  · next h =>
    split
    · next hm => exact .inr (.inl ⟨Nat.not_lt.mp h, hm, rfl⟩)
    · next hm =>
      refine .inr (.inr ⟨Nat.not_lt.mp h, Int.not_lt.mp hm, ?_⟩)
      split
      · next hh => exact .inr ⟨hh, rfl⟩
      · next hh => exact .inl ⟨Int.not_lt.mp hh, rfl⟩

/-- What a reverse count can do (R6, R9, R11). -/
theorem State.reverseCount_cases (s : State) :
    (s.ptk.scale.step ≤ s.ptk.acc ∧ s.reverseCount = { s with ptk := { s.ptk with acc := s.ptk.acc - s.ptk.scale.step } })
      ∨ (s.ptk.acc < s.ptk.scale.step ∧ s.ptk.tick - 1 < Config.tickMin ∧ s.reverseCount = s.encoderErrorCounted)
      ∨ (s.ptk.acc < s.ptk.scale.step ∧ Config.tickMin ≤ s.ptk.tick - 1
          ∧ ((s.ptk.scale.reverseLimit = 0 ∨ s.ptk.high - (s.ptk.tick - 1) < s.ptk.scale.reverseLimit)
                ∧ s.reverseCount = s.borrowed
            ∨ s.ptk.scale.reverseLimit ≠ 0 ∧ (s.ptk.scale.reverseLimit : Int) ≤ s.ptk.high - (s.ptk.tick - 1)
                ∧ s.reverseCount = s.borrowed.rewind)) := by
  unfold State.reverseCount
  dsimp only
  split
  · next h => exact .inl ⟨h, rfl⟩
  · next h =>
    split
    · next hm => exact .inr (.inl ⟨Nat.not_le.mp h, hm, rfl⟩)
    · next hm =>
      refine .inr (.inr ⟨Nat.not_le.mp h, Int.not_lt.mp hm, ?_⟩)
      split
      · next hr => exact .inr ⟨hr.1, hr.2, rfl⟩
      · next hr =>
        refine .inl ⟨?_, rfl⟩
        by_cases h0 : s.ptk.scale.reverseLimit = 0
        · exact .inl h0
        · exact .inr (Int.not_le.mp fun hle => hr ⟨h0, hle⟩)

/-! ## The Position Tracker after a tick and after a rewind -/

theorem State.handTick_ptk (s : State) : s.handTick.ptk = { s.ptk with pendingEdges := 0 } := by
  simp [State.handTick]

theorem State.emitTick_ptk (s : State) :
    s.emitTick.ptk = { s.ptk.emit s.now with
      pendingEdges := if s.rnc.runState = .config then s.ptk.pendingEdges else 0 } := by
  unfold State.emitTick
  dsimp only
  by_cases h : s.rnc.runState = .config <;> simp [h, State.handTick_ptk, Ptk.emit]

theorem State.rewind_ptk (s : State) :
    s.rewind.ptk = { s.ptk with high := s.ptk.tick, tickTimer := none, interval := none } := by
  unfold State.rewind
  dsimp only
  split <;> simp

/-! ## The readings A, T and H over a count -/

/-- Scale, A, T and H after a count: A moves, or nothing does, or T moves by one and H with it where T passes it or rewinds. -/
inductive Ptk.Travels (k m : Ptk) : Prop where
  | within (hs : m.scale = k.scale) (ht : m.tick = k.tick) (hh : m.high = k.high)
      (ha : m.acc = k.acc ∨ k.acc + k.scale.step < k.scale.pitch ∧ m.acc = k.acc + k.scale.step
        ∨ k.scale.step ≤ k.acc ∧ m.acc = k.acc - k.scale.step)
  | ahead (hs : m.scale = k.scale) (hc : k.scale.pitch ≤ k.acc + k.scale.step) (ha : m.acc = k.acc + k.scale.step - k.scale.pitch)
      (hmax : k.tick + 1 ≤ Config.tickMax) (ht : m.tick = k.tick + 1) (hh : m.high = max k.high (k.tick + 1))
  | back (hs : m.scale = k.scale) (hb : k.acc < k.scale.step) (ha : m.acc = k.acc + k.scale.pitch - k.scale.step)
      (hmin : Config.tickMin ≤ k.tick - 1) (ht : m.tick = k.tick - 1) (hh : m.high = k.high)
  | rewinds (hs : m.scale = k.scale) (hb : k.acc < k.scale.step) (ha : m.acc = k.acc + k.scale.pitch - k.scale.step)
      (hmin : Config.tickMin ≤ k.tick - 1) (ht : m.tick = k.tick - 1) (hh : m.high = k.tick - 1)
      (h0 : k.scale.reverseLimit ≠ 0) (hr : (k.scale.reverseLimit : Int) ≤ k.high - (k.tick - 1))

theorem State.forwardCount_travels (s : State) : s.ptk.Travels s.forwardCount.ptk := by
  rcases s.forwardCount_cases with ⟨h, ht⟩ | ⟨-, -, ht⟩ | ⟨hc, hmax, ⟨hh, ht⟩ | ⟨hh, ht⟩⟩
  · rw [ht]; exact .within rfl rfl rfl (.inr (.inl ⟨h, rfl⟩))
  · rw [ht]; exact .within rfl rfl rfl (.inl rfl)
  · rw [ht]; exact .ahead rfl hc rfl hmax rfl (max_eq_left hh).symm
  · rw [ht, State.emitTick_ptk]; exact .ahead rfl hc rfl hmax rfl (max_eq_right hh.le).symm

theorem State.reverseCount_travels (s : State) : s.ptk.Travels s.reverseCount.ptk := by
  rcases s.reverseCount_cases with ⟨h, ht⟩ | ⟨-, -, ht⟩ | ⟨hb, hmin, ⟨-, ht⟩ | ⟨h0, hr, ht⟩⟩
  · rw [ht]; exact .within rfl rfl rfl (.inr (.inr ⟨h, rfl⟩))
  · rw [ht]; exact .within rfl rfl rfl (.inl rfl)
  · rw [ht]; exact .back rfl hb rfl hmin rfl rfl
  · rw [ht, State.rewind_ptk]; exact .rewinds rfl hb rfl hmin rfl rfl h0 hr

/-- The decoder and the motion logic leave scale, A, T and H alone. -/
theorem Ptk.Travels.of_readings {k l m : Ptk} (h : l.Travels m) (hs : l.scale = k.scale) (ha : l.acc = k.acc) (ht : l.tick = k.tick)
    (hh : l.high = k.high) : k.Travels m := by
  cases k; cases l
  obtain ⟨rfl, rfl, rfl, rfl⟩ := And.intro hs (And.intro ha (And.intro ht hh))
  cases h with
  | within h₁ h₂ h₃ h₄ => exact .within h₁ h₂ h₃ h₄
  | ahead h₁ h₂ h₃ h₄ h₅ h₆ => exact .ahead h₁ h₂ h₃ h₄ h₅ h₆
  | back h₁ h₂ h₃ h₄ h₅ h₆ => exact .back h₁ h₂ h₃ h₄ h₅ h₆
  | rewinds h₁ h₂ h₃ h₄ h₅ h₆ h₇ h₈ => exact .rewinds h₁ h₂ h₃ h₄ h₅ h₆ h₇ h₈

theorem State.takeCount_travels (s : State) (line : EncLine) : s.ptk.Travels (s.takeCount line).ptk := by
  have hreadings := s.afterMotion_ptk line
  rw [State.takeCount_eq]
  split
  · refine (State.forwardCount_travels _).of_readings ?_ ?_ ?_ ?_ <;> rw [hreadings] <;> rfl
  · refine (State.reverseCount_travels _).of_readings ?_ ?_ ?_ ?_ <;> rw [hreadings] <;> rfl

/-! ## The Position Tracker over an effect -/

/-- The readings that travel moves: scale, A, T and H. -/
def Ptk.travel (k : Ptk) : ScaleRecord × Nat × Int × Int := (k.scale, k.acc, k.tick, k.high)

theorem State.enterStalled_travel (s : State) : s.enterStalled.ptk.travel = s.ptk.travel := by
  simp [State.enterStalled, Ptk.travel]

theorem State.applyScale_travel (s : State) (r : ScaleRecord) :
    (s.applyScale r).ptk.travel = (r, 0, s.ptk.tick, s.ptk.high) := by
  unfold State.applyScale
  dsimp only
  repeat' split
  all_goals simp [Ptk.travel, State.enterStalled]

theorem State.startRun_travel (s : State) : s.startRun.ptk.travel = (s.ptk.scale, 0, 0, 0) := by
  simp [State.startRun, Ptk.travel]

theorem State.endRun_travel (s : State) : s.endRun.ptk.travel = s.ptk.travel := by
  simp [State.endRun, Ptk.travel]

theorem State.indexTaken_travel (s : State) : s.indexTaken.ptk.travel = s.ptk.travel := by
  unfold State.indexTaken
  dsimp only
  split <;> simp [Ptk.travel]

/-- What a step but a reset makes of scale, A, T and H, before the ports' choices: SET_SCALE, RUN_START and a count move them. -/
inductive TravelMoves (s u : State) : Instr → Prop where
  | stands {i} (h : u.ptk.travel = s.ptk.travel) : TravelMoves s u i
  | scaled {i} (r : ScaleRecord) (c : InPacket) (hr : readScale c.payload = some r) (hle : r.step ≤ r.pitch)
      (h : u.ptk.travel = (r, 0, s.ptk.tick, s.ptk.high)) : TravelMoves s u i
  | starts (h : u.ptk.travel = (s.ptk.scale, 0, 0, 0)) : TravelMoves s u (.runStart .a)
  | counts (line : EncLine) (hu : u = s.takeCount line) : TravelMoves s u (.count line)

theorem Effect.travelMoves {s u : State} {i : Instr} (h : Effect s i u) (hi : i.isReset = false) : TravelMoves s u i := by
  cases h
  case accepted p code owner c rest t record ht hk hr ha ho =>
    cases ownerOf_accept ho ha
    case scale r hread hle =>
      exact .scaled r c hread hle (by simpa using State.applyScale_travel (s.took p rest) r)
    case runStart q hok =>
      obtain ⟨rfl, rfl, -⟩ : q = p ∧ codeRunStart = code ∧ _ := by simpa [ownerOf] using ho
      obtain rfl := s.not_b_of_firstRefusal_none hr (hk ▸ by decide)
      exact .starts (by simpa using State.startRun_travel (s.took .a rest))
    all_goals exact .stands (by simp [State.queueReread])
  case held ha ho =>
    obtain ⟨-, q, r, -, -, rfl⟩ := ownerOf_hold ho ha
    exact .stands (by simp [State.heldInHand])
  case commandReset => simp [Instr.isReset] at hi
  case count line => exact .counts line rfl
  case indexEdge => exact .stands s.indexTaken_travel
  case stall => exact .stands (by simp [State.enterStalled_travel])
  case endOfDraining => exact .stands s.endRun_travel
  all_goals
    exact .stands (by simp [State.encoderErrorTaken, State.stallCloseOver, State.pulseOver, State.groupOver, State.replyOut,
      State.restOut, Ptk.travel])

/-! ## A step of the part -/

/-- A step runs the command at the front of the queue, or lets one clock unit pass. -/
theorem step_cases {s t : State} (h : step s = .next t) :
    (∃ c rest, exec c { s with pending := rest } = .next t) ∨ t = s.idle := by
  unfold step at h
  split at h
  · exact .inl ⟨_, _, h⟩
  · cases h; exact .inr rfl

/-! ## The invariant (O53) -/

theorem readScale_inRange {bs : List Byte} {r : ScaleRecord} (h : readScale bs = some r) : 100 ≤ r.step ∧ 10000 ≤ r.pitch := by
  unfold readScale at h
  dsimp only at h
  split at h
  · next hc => cases h; exact ⟨hc.1, hc.2.2.1⟩
  · cases h

/-- The position state is in range when its readings are. -/
theorem State.positionOk_of_travel {s t : State} (h : t.ptk.travel = s.ptk.travel) (hs : s.positionOk) : t.positionOk := by
  simp only [Ptk.travel, Prod.mk.injEq] at h
  obtain ⟨hscale, hacc, htick, hhigh⟩ := h
  simpa only [State.positionOk, hscale, hacc, htick, hhigh] using hs

theorem Ptk.Travels.positionOk {s t : State} (h : s.ptk.Travels t.ptk) (hs : s.positionOk) : t.positionOk := by
  obtain ⟨hstep, hpitch, hacc, hle, hmin, hmax⟩ := hs
  simp only [State.positionOk]
  cases h with
  | within hscale ht hh ha => rw [hscale, ht, hh]; exact ⟨hstep, hpitch, by omega, hle, hmin, hmax⟩
  | ahead hscale hc ha hm ht hh => rw [hscale, ht, hh]; exact ⟨hstep, hpitch, by omega, by omega, by omega, by omega⟩
  | back hscale hb ha hm ht hh => rw [hscale, ht, hh]; exact ⟨hstep, hpitch, by omega, by omega, by omega, by omega⟩
  | rewinds hscale hb ha hm ht hh => rw [hscale, ht, hh]; exact ⟨hstep, hpitch, by omega, by omega, by omega, by omega⟩

theorem powerUpValues_positionOk (pending : List Instr) (now : Nat) (store : Memory) (on a b : Bool) :
    (State.powerUpValues pending now store on a b).positionOk := by
  simp [State.positionOk, State.powerUpValues, Ptk.reset, ScaleRecord.default, Config.tickMin, Config.tickMax]

theorem Effect.positionOk {s u : State} {i : Instr} (h : Effect s i u) (hs : s.positionOk) : u.positionOk := by
  cases hi : i.isReset with
  | true =>
    obtain ⟨-, rfl⟩ := h.of_isReset hi
    exact powerUpValues_positionOk s.pending s.now s.slm.store s.pwrOk s.ptk.quadA s.ptk.quadB
  | false =>
    cases h.travelMoves hi with
    | stands hsame => exact State.positionOk_of_travel hsame hs
    | scaled r c hr hle hscaled =>
      simp only [Ptk.travel, Prod.mk.injEq] at hscaled
      obtain ⟨hscale, hacc, htick, hhigh⟩ := hscaled
      obtain ⟨hstep, hpitch⟩ := readScale_inRange hr
      obtain ⟨-, -, -, hth, hmin, hmax⟩ := hs
      simp only [State.positionOk, hscale, hacc, htick, hhigh]
      exact ⟨hstep, hle, by omega, hth, hmin, hmax⟩
    | starts hstarts =>
      simp only [Ptk.travel, Prod.mk.injEq] at hstarts
      obtain ⟨hscale, hacc, htick, hhigh⟩ := hstarts
      obtain ⟨hstep, hpitch, hacc', -⟩ := hs
      simp only [State.positionOk, hscale, hacc, htick, hhigh]
      exact ⟨hstep, hpitch, by omega, le_refl _, by decide, by decide⟩
    | counts line hu => rw [hu]; exact (s.takeCount_travels line).positionOk hs

theorem exec_positionOk {i : Instr} {s t : State} (h : exec i s = .next t) (hs : s.positionOk) : t.positionOk := by
  cases exec_answered h with
  | same h => rwa [h]
  | effect _ he h => exact State.positionOk_of_travel (by rw [h]; simp) (he.positionOk hs)
  | power _ h => rw [h]; exact powerUpValues_positionOk ..

/-- Settles O53: over the moves that SET_SCALE, RUN_START and a count make. -/
theorem positionStaysInRange : Obligations.PositionStaysInRange := by
  intro s t hs h
  obtain ⟨c, rest, hexec⟩ | hidle := step_cases h
  · exact exec_positionOk hexec hs
  · rw [hidle]; exact hs

/-! ## The moves of H and T (O57) -/

/-- Raising a source sets its pending flag and no other. -/
theorem State.raise_pending (s : State) (x y : Source) (fr : Option Nat) (l : Option (Fin 8)) (d : Int) :
    maskHas (s.raise x fr l d).ntu.pending y = (maskHas s.ntu.pending y || decide (y = x)) := by
  unfold State.raise
  split
  · next h =>
    by_cases hy : y = x
    · rw [hy, h]; rfl
    · simp [hy]
  · split <;> simp [maskHas_or]

/-- A short close raises FRAME_SHORT, or FRAME_DROPPED where the frame is empty, and no other source (R77). -/
theorem State.shortClose_pending (s : State) (high : Int) (c : CloseReason) (f : OpenFrame) (x : Source) :
    maskHas (s.shortClose high c f).ntu.pending x
      = (maskHas s.ntu.pending x || decide (x = if 1 ≤ s.shortRows high f then .frameShort else .frameDropped)) := by
  unfold State.shortClose
  dsimp only
  split
  · rw [State.raise_pending]; simp
  · rw [State.raise_pending]; simp

/-- Short closes leave every source that was raised so. -/
theorem State.rewindFrames_pending (s : State) (b : Int) (x : Source) (h : maskHas s.ntu.pending x = true) :
    maskHas (s.rewindFrames b).ntu.pending x = true :=
  foldl_holds (fun t => maskHas t.ntu.pending x = true) _ (fun t f ht => by simp [State.shortClose_pending, ht]) s.frt.openList s h

/-- A rewind is counted, and raises REWIND (R11). -/
theorem State.rewind_counts (s : State) :
    s.rewind.ntu.counters.position = { s.ntu.counters.position with rewinds := countUp 1 s.ntu.counters.position.rewinds }
      ∧ maskHas s.rewind.ntu.pending .rewind = true := by
  unfold State.rewind
  dsimp only
  split
  · exact ⟨by simp [State.countPosition], by simp [State.maskHas_raise]⟩
  · exact ⟨by simp [State.countPosition], by simpa using State.rewindFrames_pending _ _ _ (by simp [State.maskHas_raise])⟩

theorem State.forwardCount_high (s : State) : s.ptk.high ≤ s.forwardCount.ptk.high := by
  rcases s.forwardCount_cases with ⟨-, ht⟩ | ⟨-, -, ht⟩ | ⟨-, -, ⟨-, ht⟩ | ⟨hh, ht⟩⟩
  · rw [ht]
  · rw [ht]; exact le_refl _
  · rw [ht]; exact le_refl _
  · rw [ht, State.emitTick_ptk]; exact hh.le

/-- The move of H that falls is a counted and raised rewind (R11). -/
theorem State.takeCount_rewinds {s : State} {line : EncLine} (h : (s.takeCount line).ptk.high < s.ptk.high) :
    (s.takeCount line).ntu.counters.position.rewinds = countUp 1 s.ntu.counters.position.rewinds
      ∧ maskHas (s.takeCount line).ntu.pending .rewind = true := by
  have hhigh : (s.afterMotion line).ptk.high = s.ptk.high := by rw [s.afterMotion_ptk]; rfl
  have hcounters : (s.afterMotion line).ntu.counters = s.ntu.counters := by simp
  rw [State.takeCount_eq] at h ⊢
  rw [← hhigh] at h
  split at h
  · exact absurd h (Int.not_lt.mpr (s.afterMotion line).forwardCount_high)
  · next hforward =>
    rw [if_neg hforward]
    rcases (s.afterMotion line).reverseCount_cases with ⟨-, ht⟩ | ⟨-, -, ht⟩ | ⟨-, -, ⟨-, ht⟩ | ⟨-, -, ht⟩⟩
    · rw [ht] at h; exact absurd h (lt_irrefl _)
    · rw [ht] at h; exact absurd h (lt_irrefl _)
    · rw [ht] at h; exact absurd h (lt_irrefl _)
    · rw [ht]
      obtain ⟨hcount, hraised⟩ := (s.afterMotion line).borrowed.rewind_counts
      exact ⟨by rw [hcount, ← hcounters]; rfl, hraised⟩

/-- Settles O57: over the moves that RUN_START and a count make of A, T and H. -/
theorem highWaterMarkFallsOnlyByRewindOrRestart : Obligations.HighWaterMarkFallsOnlyByRewindOrRestart := by
  intro i s t h hi
  cases exec_answered h with
  | same h => rw [h]; exact ⟨fun h => absurd h (lt_irrefl _), fun h => absurd h (lt_irrefl _), fun h => absurd rfl h⟩
  | power hreset _ => simp [hi] at hreset
  | effect _ he h =>
    rw [h]
    simp only [State.settle_frame]
    cases he.travelMoves hi with
    | stands hsame | scaled _ _ _ _ hsame =>
      simp only [Ptk.travel, Prod.mk.injEq] at hsame
      obtain ⟨-, -, htick, hhigh⟩ := hsame
      simp [htick, hhigh]
    | starts hstarts =>
      simp only [Ptk.travel, Prod.mk.injEq] at hstarts
      obtain ⟨-, -, htick, hhigh⟩ := hstarts
      simp [htick, hhigh]
    | counts line hu =>
      rw [hu]
      refine ⟨fun hrise => .inl ?_, fun hfall => .inl ?_, fun hmove => .inl ⟨⟨line, rfl⟩, ?_⟩⟩
      · cases s.takeCount_travels line with
        | within _ _ hh | back _ _ _ _ _ hh => omega
        | rewinds _ _ _ _ _ hh => omega
        | ahead _ _ _ _ ht hh => exact ⟨⟨line, rfl⟩, by omega, by omega, by omega⟩
      · obtain ⟨hcount, hraised⟩ := State.takeCount_rewinds hfall
        cases s.takeCount_travels line with
        | within _ _ hh | back _ _ _ _ _ hh => omega
        | ahead _ _ _ _ _ hh => omega
        | rewinds _ _ _ _ ht hh h0 hr => exact ⟨⟨line, rfl⟩, by omega, hraised, hcount, h0, by omega⟩
      · cases s.takeCount_travels line <;> omega

end Sys2Proof.Machine

/-! # The setup records over a step (R1 to R122, R157) -/

namespace Sys2Proof.Machine

/-- The setup records of R180 that a run does not change, as one reading of the state. -/
structure Setup where
  scale : ScaleRecord
  table : Eight PhaseEntry
  spacing : Nat
  lanes : Fin 8 → LaneRecord
  framing : FramingRecord
  layout : LayoutRecord
  store : StoreRecord
  routes : Fin 8 → RouteRecord

def State.setup (s : State) : Setup where
  scale := s.ptk.scale
  table := s.tru.table
  spacing := s.tru.spacing
  lanes l := (s.lanes.get l).record
  framing := s.frt.record
  layout := s.layout
  store := s.slm.record
  routes r := { s.dle.routes.get r with lead := 0 }

theorem State.setup_eq_iff (s t : State) : t.setup = s.setup ↔ s.sameSetup t := by
  simp only [State.setup, Setup.mk.injEq, funext_iff, State.sameSetup]

/-! ## Lanes and triggers -/

/-- A change of a lane that keeps its record keeps the setup. -/
theorem State.setLane_setup (s : State) (l : Fin 8) (f : Lane → Lane) (hf : ∀ n, (f n).record = n.record) :
    (s.setLane l f).setup = s.setup := by
  have hget (m : Fin 8) : ((s.setLane l f).lanes.get m).record = (s.lanes.get m).record := by
    rw [State.setLane_get]
    split
    · next h => rw [hf, h]
    · rfl
  simp [State.setup, hget]

@[simp] theorem State.offerEntry_setup (s : State) (t : Int) (e : Fin 8) (x : PhaseEntry) (l : Fin 8) :
    (s.offerEntry t e x l).setup = s.setup := by
  have happend : (s.append l t e x).setup = s.setup := s.setLane_setup l _ fun _ => rfl
  have hwithhold : (s.withhold l t x).setup = s.setup := by simp [State.setup]
  have hfill (u : State) (c : FillCause) (p : Int) : (u.fillMark l x.plane p c).setup = u.setup := by simp [State.setup]
  unfold State.offerEntry
  dsimp only
  split
  · split
    · exact happend
    · exact hwithhold
  · split
    · rw [hfill, happend]
    · exact hwithhold
  · exact hfill _ _ _
  · rfl
  · rfl

/-- An entry offered to the lanes 0 to 7. -/
def State.offered (s : State) (tick : Int) (e : Fin 8) (x : PhaseEntry) : State :=
  indices.foldl (fun s l => s.offerEntry tick e x l) s

/-- The state as an entry's strobe pulse begins. -/
def State.pulsed (s : State) (x : PhaseEntry) : State := { s with tru := s.tru.pulse s.now x }

/-- The group in progress with one more entry issued. -/
def State.oneIssued (s : State) (g : Group) : State :=
  { s with tru := { s.tru with group := some { g with issued := g.issued + 1 } } }

/-- The issue of an entry: the strobe pulse, the offer to the lanes, and the group's count (R31, R32, R33). -/
theorem State.issueNext_eq {s : State} {g : Group} {e : Fin 8} (hg : s.tru.group = some g) (he : g.entries[g.issued]? = some e) :
    s.issueNext = ((s.pulsed (s.tru.table.get e)).offered g.tick e (s.tru.table.get e)).oneIssued g := by
  unfold State.issueNext
  rw [hg]
  dsimp only
  rw [he]
  rfl

/-- With no group in progress, or all its entries issued, nothing is issued. -/
theorem State.issueNext_cases (s : State) :
    s.issueNext = s ∨ ∃ g e, s.tru.group = some g ∧ g.entries[g.issued]? = some e
      ∧ s.issueNext = ((s.pulsed (s.tru.table.get e)).offered g.tick e (s.tru.table.get e)).oneIssued g := by
  cases hg : s.tru.group with
  | none => exact .inl (by unfold State.issueNext; rw [hg])
  | some g =>
    cases he : g.entries[g.issued]? with
    | none => exact .inl (by unfold State.issueNext; rw [hg]; dsimp only; rw [he])
    | some e => exact .inr ⟨g, e, rfl, he, State.issueNext_eq hg he⟩

@[simp] theorem State.offered_setup (s : State) (tick : Int) (e : Fin 8) (x : PhaseEntry) : (s.offered tick e x).setup = s.setup :=
  foldl_keeps State.setup (fun s l => s.offerEntry tick e x l) (fun s l => by simp) indices s

@[simp] theorem State.issueNext_setup (s : State) : s.issueNext.setup = s.setup := by
  rcases s.issueNext_cases with h | ⟨g, e, -, -, h⟩
  · rw [h]
  · rw [h]
    exact (State.offered_setup _ _ _ _).trans rfl

@[simp] theorem State.decideTick_setup (s : State) (t : Int) : (s.decideTick t).setup = s.setup := by
  have hissue : (s.issueGroup t).setup = s.setup := (State.issueNext_setup _).trans rfl
  have htru : (s.overspeedTick t).tru = { s.tru with skipped := satAdd Config.edgeMax 1 s.tru.skipped } := by
    have hmarks := foldl_keeps State.tru (fun s l => s.overspeedMarks t l) (fun s l => by simp) indices s
    simp [State.overspeedTick, hmarks]
  have hover : (s.overspeedTick t).setup = s.setup := by simp [State.setup, htru]
  unfold State.decideTick
  (repeat' split) <;> simp [hissue, hover]

/-! ## Framing -/

theorem Tru.takeBoundary_setup (u : Tru) (b : Bool) : (u.takeBoundary b).table = u.table ∧ (u.takeBoundary b).spacing = u.spacing := by
  unfold Tru.takeBoundary Tru.switchLoop Tru.pointerToStart
  (repeat' split) <;> exact ⟨rfl, rfl⟩

theorem Lane.promote_record (n : Lane) : n.promote.record = n.record := by
  unfold Lane.promote; split <;> rfl

theorem closePassing_record (high : Int) (fs : List OpenFrame) (s : State) :
    (closePassing high fs s).frt.record = s.frt.record := by
  obtain ⟨k, h⟩ := closePassing_openList high fs s
  rw [h]

@[simp] theorem State.closeTest_setup (s : State) (high : Int) : (s.closeTest high).setup = s.setup := by
  have hrecord : (s.closeTest high).frt.record = s.frt.record := closePassing_record high _ s
  simp [State.setup, hrecord]

@[simp] theorem State.progressed_setup (s : State) : s.progressed.setup = s.setup := by
  obtain ⟨k, h⟩ := s.progressed_openList
  simp [State.setup, h]

@[simp] theorem State.boundNewest_setup (s : State) (e : Int) : (s.boundNewest e).setup = s.setup := by
  have hrecord : (s.boundNewest e).frt.record = s.frt.record := by
    unfold State.boundNewest
    dsimp only
    repeat' split
    all_goals simp
  simp [State.setup, hrecord]

@[simp] theorem State.truncateNewest_setup (s : State) (t : Int) : (s.truncateNewest t).setup = s.setup := by
  have hrecord : (s.truncateNewest t).frt.record = s.frt.record := by
    unfold State.truncateNewest
    dsimp only
    repeat' split
    all_goals simp
  simp [State.setup, hrecord]

/-! ## Opening a frame -/

/-- What an allocation request can do (R90, R91, R92): a FREE slot is set up, or a CLOSED one evicted and set up, or it is refused. -/
theorem State.allocate_cases (s : State) (frame : Nat) (start : Int) (kind : BoundaryKind) :
    (∃ i, s.slm.slots.findIdx? (fun x => x.state = .free) = some i ∧ s.allocate frame start kind = (some i, s.setUpSlot i frame start kind))
      ∨ s.slm.slots.findIdx? (fun x => x.state = .free) = none
        ∧ ((s.slm.record.policy = .dropOldest ∧ ∃ i, s.victim = some i
              ∧ s.allocate frame start kind = (some i, (s.evict i).setUpSlot i frame start kind))
          ∨ (s.slm.record.policy = .dropNew ∨ s.victim = none) ∧ s.allocate frame start kind = (none, s)) := by
  unfold State.allocate
  split
  · next i hi => exact .inl ⟨i, hi, rfl⟩
  · next hi =>
    refine .inr ⟨hi, ?_⟩
    split
    · next hp => exact .inr ⟨.inl hp, rfl⟩
    · next hp =>
      split
      · next hv => exact .inr ⟨.inr hv, rfl⟩
      · next i hv => exact .inl ⟨hp, i, hv, rfl⟩

/-- A new frame in a slot joins the open list (R70). -/
def State.joined (s : State) (i number : Nat) (start : Int) : State :=
  State.countFrames
    { s with frt := { s.frt with openList := s.frt.openList ++
      [{ number := number, slot := i, start := start, stop := none, truncated := false }] } }
    fun c => { c with opened := countUp 1 c.opened }

/-- What a boundary does for the new frame (R69, R70): dropped, or given a slot and joined to the open list. -/
theorem State.openFrame_cases (s : State) (number : Nat) (start : Int) (kind : BoundaryKind) :
    (Config.openLimit ≤ s.frt.openList.length ∧ s.openFrame number start kind = s.dropFrame number .openLimit)
      ∨ s.frt.openList.length < Config.openLimit
        ∧ ((s.allocate number start kind = (none, s) ∧ s.openFrame number start kind = s.dropFrame number .noSlot)
          ∨ ∃ i t, s.allocate number start kind = (some i, t) ∧ s.openFrame number start kind = t.joined i number start) := by
  unfold State.openFrame
  split
  · next h => exact .inl ⟨h, rfl⟩
  · next h =>
    refine .inr ⟨Nat.not_le.mp h, ?_⟩
    rcases s.allocate_cases number start kind with ⟨i, -, ha⟩ | ⟨-, ⟨-, i, -, ha⟩ | ⟨-, ha⟩⟩
    · exact .inr ⟨i, _, ha, by rw [ha]; rfl⟩
    · exact .inr ⟨i, _, ha, by rw [ha]; rfl⟩
    · exact .inl ⟨ha, by rw [ha]⟩

@[simp] theorem State.openFrame_setup (s : State) (n : Nat) (p : Int) (k : BoundaryKind) : (s.openFrame n p k).setup = s.setup := by
  rcases s.openFrame_cases n p k with ⟨-, h⟩ | ⟨-, ⟨-, h⟩ | ⟨i, t, ha, h⟩⟩
  · rw [h]; simp [State.setup]
  · rw [h]; simp [State.setup]
  · have hframe := State.allocate_frame s n p k
    rw [ha] at hframe
    rw [h]
    simp only at hframe
    simp [State.setup, State.joined, hframe]

/-! ## A boundary and a tick -/

/-- The first part of a boundary (R68, R71): the loop switch, the lanes promoted, the frame counter moved, and a SYNTH boundary counted. -/
def State.boundaryBegun (s : State) (kind : BoundaryKind) : State :=
  let s1 := { s with
    tru := s.tru.takeBoundary (decide (s.frt.state = FramingState.seeking)), lanes := s.lanes.map Lane.promote,
    frt := { s.frt with counter := (s.frt.counter + 1) % 4294967296 } }
  if kind = .synth then
    (s1.countPosition fun c => { c with synthesisedIndex := countUp 1 c.synthesisedIndex }).raise .indexSynth
      (frame := some s.frt.counter)
  else s1

/-- The state at a boundary as the new frame is about to be opened: the newest frame bounded and the close test made (R68). -/
def State.boundaryClosed (s : State) (tick : Int) (kind : BoundaryKind) : State :=
  ((s.boundaryBegun kind).boundNewest (tick + (s.frt.record.offset : Int))).closeTest (tick - 1)

/-- Framing is TRACKING from a boundary's tick (R71). -/
def State.tracking (s : State) (tick : Int) : State :=
  { s with frt := { s.frt with lastBoundary := some tick, state := .tracking } }

theorem State.takeBoundary_eq (s : State) (tick : Int) (kind : BoundaryKind) :
    s.takeBoundary tick kind
      = ((s.boundaryClosed tick kind).openFrame s.frt.counter (tick + (s.frt.record.offset : Int)) kind).tracking tick := rfl

@[simp] theorem State.boundaryBegun_setup (s : State) (kind : BoundaryKind) : (s.boundaryBegun kind).setup = s.setup := by
  unfold State.boundaryBegun
  dsimp only
  split <;> simp [State.setup, Tru.takeBoundary_setup, Lane.promote_record]

@[simp] theorem State.takeBoundary_setup (s : State) (tick : Int) (kind : BoundaryKind) :
    (s.takeBoundary tick kind).setup = s.setup := by
  rw [State.takeBoundary_eq]
  calc (((s.boundaryClosed tick kind).openFrame s.frt.counter (tick + (s.frt.record.offset : Int)) kind).tracking tick).setup
      = ((s.boundaryClosed tick kind).openFrame s.frt.counter (tick + (s.frt.record.offset : Int)) kind).setup := rfl
    _ = s.setup := by simp [State.boundaryClosed]

/-- What a tick brings (R67): nothing outside RUNNING; a boundary; a truncation while TRACKING; or its spurious edges alone. -/
theorem State.judgeTick_cases (s : State) (tick : Int) (edges : Nat) :
    (s.rnc.runState ≠ .running ∧ s.judgeTick tick edges = s)
      ∨ s.rnc.runState = .running
        ∧ ((∃ kind spare, s.frt.judge tick edges = (some kind, spare) ∧ s.judgeTick tick edges = (s.takeBoundary tick kind).spurious tick spare)
          ∨ ∃ spare, s.frt.judge tick edges = (none, spare)
            ∧ (s.frt.state = .tracking ∧ s.judgeTick tick edges = (s.spurious tick spare).truncateNewest tick
              ∨ s.frt.state = .seeking ∧ s.judgeTick tick edges = s.spurious tick spare)) := by
  unfold State.judgeTick
  split
  · next h =>
    refine .inr ⟨h, ?_⟩
    split
    · next kind spare hj => exact .inl ⟨kind, spare, hj, rfl⟩
    · next spare hj =>
      refine .inr ⟨spare, hj, ?_⟩
      cases hf : s.frt.state <;> simp
  · next h => exact .inl ⟨h, rfl⟩

@[simp] theorem State.judgeTick_setup (s : State) (tick : Int) (edges : Nat) : (s.judgeTick tick edges).setup = s.setup := by
  have hspurious (u : State) (n : Nat) : (u.spurious tick n).setup = u.setup := by simp [State.setup]
  rcases s.judgeTick_cases tick edges with ⟨-, h⟩ | ⟨-, ⟨kind, spare, -, h⟩ | ⟨spare, -, ⟨-, h⟩ | ⟨-, h⟩⟩⟩ <;> rw [h] <;>
    simp [hspurious]

@[simp] theorem State.handTick_setup (s : State) : s.handTick.setup = s.setup := by
  simp only [State.handTick, State.progressed_setup, State.decideTick_setup, State.judgeTick_setup]
  rfl

@[simp] theorem State.emitTick_setup (s : State) : s.emitTick.setup = s.setup := by
  unfold State.emitTick
  dsimp only
  split
  · simp [State.setup, Ptk.emit]
  · rw [State.handTick_setup]; simp [State.setup, Ptk.emit]

@[simp] theorem State.shortCloseAll_setup (s : State) (high : Int) (c : CloseReason) : (s.shortCloseAll high c).setup = s.setup :=
  foldl_keeps State.setup (fun s f => s.shortClose high c f) (fun s f => by simp [State.setup]) s.frt.openList s

@[simp] theorem State.rewind_setup (s : State) : s.rewind.setup = s.setup := by
  have hframes (u : State) (b : Int) : (u.rewindFrames b).setup = u.setup := State.shortCloseAll_setup u b .shortRewind
  unfold State.rewind
  dsimp only
  split
  · simp [State.setup]
  · rw [State.progressed_setup, hframes]; simp [State.setup]

@[simp] theorem State.takeCount_setup (s : State) (line : EncLine) : (s.takeCount line).setup = s.setup := by
  have hmotion : (s.afterMotion line).setup = s.setup := by simp [State.setup, State.afterMotion_ptk, Ptk.decode]
  rw [State.takeCount_eq]
  split
  · rw [← hmotion]
    rcases (s.afterMotion line).forwardCount_cases with ⟨-, h⟩ | ⟨-, -, h⟩ | ⟨-, -, ⟨-, h⟩ | ⟨-, h⟩⟩
    · rw [h]; rfl
    · rw [h]; rfl
    · rw [h]; rfl
    · rw [h, State.emitTick_setup]; rfl
  · rw [← hmotion]
    rcases (s.afterMotion line).reverseCount_cases with ⟨-, h⟩ | ⟨-, -, h⟩ | ⟨-, -, ⟨-, h⟩ | ⟨-, -, h⟩⟩
    · rw [h]; rfl
    · rw [h]; rfl
    · rw [h]; rfl
    · rw [h, State.rewind_setup]; rfl

/-! ## Stalls and the close at stop -/

@[simp] theorem State.stallClose_setup (s : State) : s.stallClose.setup = s.setup := by
  unfold State.stallClose
  split
  · rfl
  · exact State.shortCloseAll_setup s s.ptk.high .shortStall

@[simp] theorem State.stopCloseAll_setup (s : State) : s.stopCloseAll.setup = s.setup :=
  foldl_keeps State.setup State.stopClose (fun s f => by simp [State.setup]) s.frt.openList s

/-! ## Lanes -/

@[simp] theorem State.laneUp_setup (s : State) (l : Fin 8) : (s.laneUp l).setup = s.setup := by
  have hraise (u : State) : (u.raise .laneUp (lane := some l)).setup = u.setup := by simp [State.setup]
  unfold State.laneUp
  dsimp only
  repeat' split
  · rfl
  · rw [hraise, State.setLane_setLane]; exact s.setLane_setup l _ fun _ => rfl
  · rw [hraise, State.setLane_setLane]; exact s.setLane_setup l _ fun _ => rfl
  · exact s.setLane_setup l _ fun _ => rfl

/-- Resolving records and counting lines leave the setup alone. -/
theorem State.resolveRecord_setup (s : State) (l : Fin 8) (c : FillCause) (q : TrigRecord) : (s.resolveRecord l c q).setup = s.setup := by
  simp [State.setup]

theorem State.loseRecord_setup (s : State) (l : Fin 8) (q : TrigRecord) : (s.loseRecord l q).setup = s.setup := by
  simp [State.setup]

theorem State.countLane_setup (s : State) (l : Fin 8) (f : LaneCounters → LaneCounters) : (s.countLane l f).setup = s.setup := rfl

@[simp] theorem State.laneLost_setup (s : State) (l : Fin 8) : (s.laneLost l).setup = s.setup := by
  have hraise (u : State) : (u.raise .laneDown (lane := some l)).setup = u.setup := by simp [State.setup]
  have hmarks (u : State) (qs : List TrigRecord) (ys : List Placement) :
      (ys.foldl (fun s y => s.fillMark l y.plane y.position .laneDown)
        (qs.foldl (fun s q => s.resolveRecord l .laneDown q) u)).setup = u.setup := by simp [State.setup]
  unfold State.laneLost
  dsimp only
  split
  · rw [State.progressed_setup, hraise, hmarks, State.setLane_setLane]
    exact s.setLane_setup l _ fun _ => rfl
  · exact s.setLane_setup l _ fun _ => rfl

@[simp] theorem State.dropOrphans_setup (s : State) (l : Fin 8) (ys : List Placement) : (s.dropOrphans l ys).setup = s.setup := by
  induction ys generalizing s with
  | nil => exact s.setLane_setup l _ fun _ => rfl
  | cons y ys ih =>
    unfold State.dropOrphans
    split
    · exact s.setLane_setup l _ fun _ => rfl
    · rw [ih, State.countLane_setup]

@[simp] theorem State.takeLine_setup (s : State) (l : Fin 8) (q : TrigRecord) (h : Header) (c : CheckMark) (line : List Byte) :
    (s.takeLine l q h c line).setup = s.setup := by
  have hplace : (s.place l q h.length line).setup = s.setup := by
    unfold State.place
    dsimp only
    rw [State.dropOrphans_setup]
    repeat' split
    all_goals rfl
  unfold State.takeLine
  repeat' split
  · rw [State.resolveRecord_setup, State.countLane_setup]
  · rfl
  · exact hplace

@[simp] theorem State.receiveLane_setup (s : State) (l : Fin 8) (bytes : List Byte) : (s.receiveLane l bytes).setup = s.setup := by
  have hmatch (h : Header) (c : CheckMark) (line : List Byte) : (s.matchLine l h c line).setup = s.setup := by
    unfold State.matchLine
    dsimp only
    repeat' split
    · rfl
    · rfl
    · rw [State.takeLine_setup, foldl_keeps State.setup _ fun u q => u.loseRecord_setup l q]
      exact s.setLane_setup l _ fun _ => rfl
  unfold State.receiveLane
  dsimp only
  repeat' split
  · rfl
  · rfl
  · rfl
  · exact hmatch _ _ _

@[simp] theorem State.expireRecords_setup (s : State) (l : Fin 8) : (s.expireRecords l).setup = s.setup := by
  unfold State.expireRecords
  dsimp only
  rw [foldl_keeps State.setup _ fun u q => u.loseRecord_setup l q]
  exact s.setLane_setup l _ fun _ => rfl

@[simp] theorem State.finishPlacement_setup (s : State) (l : Fin 8) (y : Placement) (rest : List Placement) :
    (s.finishPlacement l y rest).setup = s.setup := by
  have hlane : (s.setLane l fun n => { n with placements := rest }).setup = s.setup := s.setLane_setup l _ fun _ => rfl
  have hwrite (u : State) (pl : Place) :
      ((u.writeLine l y.plane pl y.pixels).resolve l y.plane y.position .written).setup = u.setup := by simp [State.setup]
  unfold State.finishPlacement
  dsimp only
  rw [State.dropOrphans_setup, State.countLane_setup]
  repeat' split
  · rw [hwrite, hlane]
  · exact hlane
  · exact hlane

/-! ## The end of a run and a port's routes -/

theorem Tru.switchLoop_setup (u : Tru) : u.switchLoop.table = u.table ∧ u.switchLoop.spacing = u.spacing := by
  unfold Tru.switchLoop Tru.pointerToStart
  split <;> exact ⟨rfl, rfl⟩

@[simp] theorem State.endRun_setup (s : State) : s.endRun.setup = s.setup := by
  have hlane (n : Lane) : n.runEnd.record = n.record := by unfold Lane.runEnd; split <;> rfl
  simp [State.endRun, State.setup, Tru.runEnd, Tru.switchLoop_setup, hlane]

/-! ## The setup over an effect -/

/-- The setup records turn on commands that CONFIG alone accepts and port A alone may send. -/
theorem Accepts.setup {s t : State} {c : InPacket} {i : Instr} (h : Accepts s c i t) :
    t.setup = s.setup ∨ ∃ p code, i.command = some (p, code) ∧ code ∈ configCodes ∧ code ∈ deniedFromB := by
  cases h
  case scale | phases | lane | framing | layout | store | route => exact .inr ⟨_, _, rfl, by decide, by decide⟩
  case lead r lead hread hp =>
    refine .inl ?_
    have hroute (q : Fin 8) : { (s.dle.routes.set r { s.dle.routes.get r with lead := lead }).get q with lead := 0 }
        = { s.dle.routes.get q with lead := 0 } := by
      rw [Eight.get_set]
      split
      · next h => rw [h]
      · rfl
    simp only [State.setup, hroute]
  case runStart =>
    have hlane (n : Lane) : n.runStart.record = n.record := rfl
    exact .inl (by simp [State.setup, State.startRun, hlane])
  case runStop =>
    exact .inl (by simp [State.setup, State.stopRun_eq, State.stopped])
  all_goals exact .inl (by simp [State.setup, State.queueReread])

theorem Effect.setup {s u : State} {i : Instr} (h : Effect s i u) (hi : i.isReset = false) :
    u.setup = s.setup ∨ s.rnc.runState = .config ∧ ∃ code, i.command = some (.a, code) := by
  cases h
  case accepted p code owner c rest t record ht hk hr ha ho =>
    have htook : (s.took p rest).setup = s.setup := by simp [State.setup]
    rcases (ownerOf_accept ho ha).setup with hsame | ⟨q, code', hcommand, hconfig, hdenied⟩
    · exact .inl (by rw [← htook, ← hsame]; simp [State.setup])
    · obtain ⟨rfl, rfl⟩ : p = q ∧ code = code' := by simpa [command_eq_ownerOf, ho] using hcommand
      obtain rfl := s.not_b_of_firstRefusal_none hr (hk ▸ hdenied)
      exact .inr ⟨s.config_of_firstRefusal_none hr (hk ▸ hconfig), code, hcommand⟩
  case held ha ho =>
    obtain ⟨-, q, r, -, -, rfl⟩ := ownerOf_hold ho ha
    exact .inl (by simp [State.heldInHand, State.setup])
  case commandReset => simp [Instr.isReset] at hi
  case indexEdge =>
    refine .inl ?_
    unfold State.indexTaken
    dsimp only
    split <;> simp [State.setup]
  case stall => exact .inl (by simp [State.setup, State.enterStalled])
  case stallClose => exact .inl ((State.stallClose_setup _).trans rfl)
  case entryIssue => exact .inl ((State.progressed_setup _).trans ((State.issueNext_setup _).trans rfl))
  case strobePulseEnd => exact .inl rfl
  case groupDone => exact .inl rfl
  case triggersEnded => exact .inl rfl
  case lineTimeout => exact .inl ((State.progressed_setup _).trans ((State.expireRecords_setup _ _).trans rfl))
  case rewindHoldClear => exact .inl rfl
  case count | laneLinkUp | laneLinkLoss | lanePacketReceived | placementComplete | closeAtStop | endOfDraining =>
    exact .inl (by simp)
  all_goals
    exact .inl (by simp [State.encoderErrorTaken, State.stallCloseOver, State.replyOut, State.restOut, State.setup])

@[simp] theorem State.settle_setup (s : State) (lead : Bool) : (s.settle lead).setup = s.setup := by
  simp [State.setup]

/-! ## What a command from port B leaves alone -/

/-- What port A alone may change, but for the setup records: the run state, a reset pending, the loop bounds, the notice record, the
port records, and the routes of port A with their paused bits. -/
structure ForA where
  runState : RunState
  resetPending : Bool
  loop : LoopBounds
  staged : Option LoopBounds
  enable : BitVec 16
  records : Port → PortRecord × Option PortRecord
  routes : Fin 8 → Option (RouteRecord × Bool)

def State.forA (s : State) : ForA where
  runState := s.rnc.runState
  resetPending := s.rnc.resetPending
  loop := s.tru.loop
  staged := s.tru.staged
  enable := s.ntu.enable
  records p := ((s.ports.get p).record, (s.ports.get p).staged)
  routes r := if (s.dle.routes.get r).port = .a then some (s.dle.routes.get r, s.dle.paused.getLsbD r.val) else none

theorem State.route_of_forA {s t : State} (h : t.forA = s.forA) (r : Fin 8) (hr : (s.dle.routes.get r).port = .a) :
    t.dle.routes.get r = s.dle.routes.get r ∧ t.dle.paused.getLsbD r.val = s.dle.paused.getLsbD r.val := by
  have hroute := congrFun (congrArg ForA.routes h) r
  simp only [State.forA, hr, if_true] at hroute
  split at hroute
  · simpa using hroute
  · cases hroute

/-- A change of a port that keeps its record and its staged record keeps what port A alone may change. -/
theorem State.setPort_forA (s : State) (p : Port) (f : HostPort → HostPort) (hr : ∀ h, (f h).record = h.record)
    (hs : ∀ h, (f h).staged = h.staged) : (s.setPort p f).forA = s.forA := by
  have hget (q : Port) : (((s.setPort p f).ports.get q).record, ((s.setPort p f).ports.get q).staged)
      = ((s.ports.get q).record, (s.ports.get q).staged) := by
    rw [State.setPort_get]
    split
    · next h => rw [hr, hs, h]
    · rfl
  simp [State.forA, hget]

@[simp] theorem State.settle_forA (s : State) (lead : Bool) : (s.settle lead).forA = s.forA := by
  have hqueues (p : Port) : (((s.settle lead).ports.get p).record, ((s.settle lead).ports.get p).staged)
      = ((s.ports.get p).record, (s.ports.get p).staged) := by
    obtain ⟨-, hports⟩ := (s.backlog_eq_iff (s.settle lead)).mp (s.settle_backlog lead)
    obtain ⟨hrecord, hstaged, -⟩ := hports p
    rw [hrecord, hstaged]
  simp [State.forA, hqueues]

theorem routeMask_getLsbD (routes : List (Fin 8)) (r : Fin 8) : (routeMask routes).getLsbD r.val = decide (r ∈ routes) := by
  have hfold (m : BitVec 8) : (routes.foldl (fun m r => m ||| BitVec.twoPow 8 r.val) m).getLsbD r.val
      = (m.getLsbD r.val || decide (r ∈ routes)) := by
    induction routes generalizing m with
    | nil => simp
    | cons q qs ih =>
      have hq : decide (q.val = r.val) = decide (r = q) := by simp [Fin.ext_iff, eq_comm]
      rw [List.foldl_cons, ih, BitVec.getLsbD_or, BitVec.getLsbD_twoPow]
      simp [r.isLt, hq, Bool.or_assoc]
  rw [routeMask, hfold]
  simp

/-- Port B names routes of its own alone (R140, R143, R157). -/
theorem State.not_mem_namedRoutes (s : State) (mask : Nat) (r : Fin 8) (hr : (s.dle.routes.get r).port = .a) :
    r ∉ s.namedRoutes .b mask := by
  simp [State.namedRoutes, hr]

theorem Accepts.forA {s t : State} {c : InPacket} {i : Instr} {code : Nat} (h : Accepts s c i t)
    (hi : i.command = some (.b, code)) (hcode : code ∉ deniedFromB) : t.forA = s.forA := by
  cases h <;> simp only [Instr.command, Option.some.injEq, Prod.mk.injEq] at hi
  case scale | phases | lane | framing | layout | store | route | port | notices | runStart | runStop | reset | loop | loopStaged =>
    exact absurd (hi.2 ▸ by decide) hcode
  case pause named hn =>
    obtain ⟨rfl, -⟩ := hi
    have hpaused (r : Fin 8) (hr : (s.dle.routes.get r).port = .a) :
        (s.dle.paused ||| routeMask named).getLsbD r.val = s.dle.paused.getLsbD r.val := by
      have hnot : r ∉ named := hn ▸ s.not_mem_namedRoutes _ r hr
      rw [BitVec.getLsbD_or, routeMask_getLsbD, decide_eq_false hnot, Bool.or_false]
    simp only [State.forA, State.takeBackOpens_frame, ForA.mk.injEq, true_and]
    funext r
    split
    · next hr => rw [hpaused r hr]
    · rfl
  case resume =>
    obtain ⟨rfl, -⟩ := hi
    simp only [State.forA, ForA.mk.injEq, true_and]
    funext r
    split
    · next hr =>
      rw [BitVec.getLsbD_and, BitVec.getLsbD_not, routeMask_getLsbD, decide_eq_false (s.not_mem_namedRoutes _ r hr)]
      simp
    · rfl
  case lead r lead hread hp =>
    obtain ⟨rfl, -⟩ := hi
    have hr : (s.dle.routes.get r).port = .b := hp.resolve_left (by simp)
    simp only [State.forA, ForA.mk.injEq, true_and]
    funext q
    rw [Eight.get_set]
    split
    · next hq => simp [hq, hr]
    · rfl
  all_goals simp [State.forA, State.queueReread]

/-- A command from port B leaves alone what port A alone may change. -/
theorem Effect.forA {s u : State} {i : Instr} {code : Nat} (h : Effect s i u) (hi : i.command = some (.b, code)) : u.forA = s.forA := by
  have hreply (t : State) (c : InPacket) (result : Result) (record : List Byte) : (t.reply .b c result record).forA = t.forA :=
    t.setPort_forA .b _ (fun _ => rfl) (fun _ => rfl)
  have htook (rest : List InPacket) : (s.took .b rest).forA = s.forA := s.setPort_forA .b _ (fun _ => rfl) (fun _ => rfl)
  cases h
  case refused p c rest result ht hc =>
    rcases hc with hc | rfl
    · obtain ⟨rfl, -⟩ : p = .b ∧ c.kind = code := by simpa [hc] using hi
      rw [hreply, htook]
    · simp [Instr.command] at hi
  case accepted p code' owner c rest t record ht hk hr ha ho =>
    obtain ⟨rfl, rfl⟩ : p = .b ∧ code' = code := by simpa [command_eq_ownerOf, ho] using hi
    rw [hreply, ← htook rest]
    exact (ownerOf_accept ho ha).forA hi fun hdenied => by simpa using s.not_b_of_firstRefusal_none hr (hk ▸ hdenied)
  case held p code' owner c rest t ht hk hr ha ho =>
    obtain ⟨rfl, -⟩ := ownerOf_hold ho ha
    obtain ⟨rfl, rfl⟩ : p = .b ∧ codeSetPort = code' := by
      simp only [ownerOf, Option.some.injEq, Prod.mk.injEq] at ho
      simp only [Instr.command, Option.some.injEq, Prod.mk.injEq] at hi
      exact ⟨hi.1, ho.2.1⟩
    cases s.not_b_of_firstRefusal_none hr (hk ▸ by decide)
  all_goals simp [Instr.command] at hi

/-- Settles O59: over the effects, the setup records turn on commands of CONFIG and of port A, and port B's commands keep the rest. -/
theorem setupIsFixedInARunAndOutOfPortBsReach : Obligations.SetupIsFixedInARunAndOutOfPortBsReach := by
  have command_reset (i : Instr) (p : Port) (code : Nat) (hi : i.command = some (p, code)) : i.isReset = false := by
    cases i <;> simp [Instr.command] at hi <;> rfl
  refine ⟨fun i s t h hi hrun => ?_, fun i code s t h hi => ?_⟩
  · rw [← State.setup_eq_iff]
    cases exec_answered h with
    | same h => rw [h]
    | power hreset _ => simp [hi] at hreset
    | effect _ he h =>
      rw [h, State.settle_setup]
      exact (he.setup hi).resolve_right fun hconfig => hrun hconfig.1
  · have hreset := command_reset i .b code hi
    have hboth : t.setup = s.setup ∧ t.forA = s.forA := by
      cases exec_answered h with
      | same h => rw [h]; exact ⟨rfl, rfl⟩
      | power hpower _ => simp [hreset] at hpower
      | effect _ he h =>
        rw [h, State.settle_setup, State.settle_forA]
        exact ⟨(he.setup hreset).resolve_right fun ⟨_, _, ha⟩ => by simp [ha] at hi, he.forA hi⟩
    obtain ⟨hsetup, hforA⟩ := hboth
    refine ⟨(State.setup_eq_iff s t).mp hsetup, congrArg ForA.runState hforA, congrArg ForA.resetPending hforA,
      congrArg ForA.loop hforA, congrArg ForA.staged hforA, congrArg ForA.enable hforA, fun p => ?_, State.route_of_forA hforA⟩
    simpa [State.forA] using congrFun (congrArg ForA.records hforA) p

end Sys2Proof.Machine

/-! # What every operation keeps: queue limits, marks, allocation numbers, the store's form

`Kept s t` gathers what an operation that leads from s to t keeps of these, as one relation that composes; each operation of the
model has one lemma for all of them. -/

namespace Sys2Proof.Machine

/-! ## The relation -/

/-- A lane's queue and placements keep within their limits (R52, R53). -/
abbrev Lane.queuesOk (n : Lane) : Prop := n.queue.length ≤ Config.recordsPerLane ∧ n.placements.length ≤ Config.lineBuffers

/-- What becomes of a slot's record over an operation that moves the allocation counter from m to n: it is cleared, given to a new frame,
or the same frame's with every mark standing; its allocation number is its own or at most n; and its fill runs keep their limit. -/
structure SlotKept (m n : Nat) (x y : Slot) : Prop where
  marks : y.alloc = 0 ∨ m < y.alloc
    ∨ y.alloc = x.alloc ∧ ∀ l k row, x.markOf l k row ≠ .unresolved → y.markOf l k row = x.markOf l k row
  alloc : y.alloc ≤ n ∨ y.alloc = x.alloc
  runs : x.fillRuns.length ≤ Config.fillRunLimit → y.fillRuns.length ≤ Config.fillRunLimit

theorem SlotKept.refl (m n : Nat) (x : Slot) : SlotKept m n x x :=
  ⟨.inr (.inr ⟨rfl, fun _ _ _ _ => rfl⟩), .inr rfl, id⟩

theorem SlotKept.trans {m n o : Nat} {x y z : Slot} (hmn : m ≤ n) (hno : n ≤ o) (h : SlotKept m n x y) (h' : SlotKept n o y z) :
    SlotKept m o x z where
  marks := by
    rcases h'.marks with h0 | hlt | ⟨ha, hmarks⟩
    · exact .inl h0
    · exact .inr (.inl (by omega))
    · rcases h.marks with h0 | hlt | ⟨ha', hmarks'⟩
      · exact .inl (by omega)
      · exact .inr (.inl (by omega))
      · refine .inr (.inr ⟨by omega, fun l k row hx => ?_⟩)
        have hy := hmarks' l k row hx
        rw [hmarks l k row (hy ▸ hx), hy]
  alloc := by
    rcases h'.alloc with hle | heq
    · exact .inl hle
    · rcases h.alloc with hle' | heq'
      · exact .inl (by omega)
      · exact .inr (by omega)
  runs := h'.runs ∘ h.runs

/-- A change that keeps a slot's allocation number, its marks and its fill runs within their number. -/
theorem SlotKept.of_same {m n : Nat} {x y : Slot} (ha : y.alloc = x.alloc) (hm : y.marks = x.marks)
    (hr : y.fillRuns.length ≤ x.fillRuns.length) : SlotKept m n x y :=
  ⟨.inr (.inr ⟨ha, fun l k row _ => by unfold Slot.markOf; rw [hm]⟩), .inr ha, fun h => hr.trans h⟩

theorem SlotKept.empty (m n : Nat) (x : Slot) : SlotKept m n x Slot.empty :=
  ⟨.inl rfl, .inl (Nat.zero_le n), fun _ => Nat.zero_le _⟩

/-- What an operation keeps. -/
structure Kept (s t : State) : Prop where
  counter : s.slm.allocCounter ≤ t.slm.allocCounter
  slots : ∀ i, SlotKept s.slm.allocCounter t.slm.allocCounter (s.slot i) (t.slot i)
  lanes : (∀ l, (s.lanes.get l).queuesOk) → ∀ l, (t.lanes.get l).queuesOk
  opens : s.frt.openList.length ≤ Config.openLimit → t.frt.openList.length ≤ Config.openLimit
  ports : (∀ p, (s.ports.get p).queuesOk) → ∀ p, (t.ports.get p).queuesOk
  rereads : (∀ p, (s.dle.rereads.get p).length ≤ Config.rereadLimit) → ∀ p, (t.dle.rereads.get p).length ≤ Config.rereadLimit
  store : s.slm.store.wf → t.slm.store.wf

theorem Kept.refl (s : State) : Kept s s := ⟨le_refl _, fun _ => .refl _ _ _, id, id, id, id, id⟩

theorem Kept.trans {s t u : State} (h : Kept s t) (h' : Kept t u) : Kept s u where
  counter := h.counter.trans h'.counter
  slots i := (h.slots i).trans h.counter h'.counter (h'.slots i)
  lanes := h'.lanes ∘ h.lanes
  opens := h'.opens ∘ h.opens
  ports := h'.ports ∘ h.ports
  rereads := h'.rereads ∘ h.rereads
  store := h'.store ∘ h.store

/-- A fold of operations that each keep. -/
theorem Kept.foldl {β : Type} (f : State → β → State) (h : ∀ s x, Kept s (f s x)) (xs : List β) (s : State) :
    Kept s (xs.foldl f s) :=
  foldl_holds (Kept s) f (fun t x ht => ht.trans (h t x)) xs s (.refl s)

/-- An operation that moves none of the readings. -/
theorem Kept.of_same {s t : State} (hslm : t.slm = s.slm := by simp) (hlanes : t.lanes = s.lanes := by simp)
    (hopens : t.frt.openList = s.frt.openList := by simp) (hports : t.ports = s.ports := by simp)
    (hrereads : t.dle.rereads = s.dle.rereads := by simp) : Kept s t where
  counter := by rw [hslm]
  slots i := by unfold State.slot; rw [hslm]; exact .refl _ _ _
  lanes := by rw [hlanes]; exact id
  opens := by rw [hopens]; exact id
  ports := by rw [hports]; exact id
  rereads := by rw [hrereads]; exact id
  store := by rw [hslm]; exact id

/-- An operation on the slots alone. -/
theorem Kept.of_slots {s t : State} (hslots : ∀ i, SlotKept s.slm.allocCounter s.slm.allocCounter (s.slot i) (t.slot i))
    (hcounter : t.slm.allocCounter = s.slm.allocCounter := by simp) (hlanes : t.lanes = s.lanes := by simp)
    (hopens : t.frt.openList = s.frt.openList := by simp) (hports : t.ports = s.ports := by simp)
    (hrereads : t.dle.rereads = s.dle.rereads := by simp) (hstore : t.slm.store = s.slm.store := by simp) : Kept s t where
  counter := by rw [hcounter]
  slots i := by rw [hcounter]; exact hslots i
  lanes := by rw [hlanes]; exact id
  opens := by rw [hopens]; exact id
  ports := by rw [hports]; exact id
  rereads := by rw [hrereads]; exact id
  store := by rw [hstore]; exact id

/-! ## Single changes -/

/-- A change of one slot's record, read back: it is made where the table holds the slot. -/
theorem State.setSlot_slot_cases (s : State) (i j : Nat) (f : Slot → Slot) :
    (s.setSlot i f).slot j = s.slot j ∨ j = i ∧ (s.setSlot i f).slot j = f (s.slot i) := by
  by_cases hi : i < s.slm.slots.length
  · rw [State.setSlot_slot _ _ _ _ hi]
    split
    · next h => exact .inr ⟨h, rfl⟩
    · exact .inl rfl
  · left
    unfold State.slot State.setSlot
    dsimp only
    rw [List.modify_eq_self (by omega)]

theorem State.setSlot_kept (s : State) (i : Nat) (f : Slot → Slot)
    (h : SlotKept s.slm.allocCounter s.slm.allocCounter (s.slot i) (f (s.slot i))) : Kept s (s.setSlot i f) := by
  refine .of_slots fun j => ?_
  rcases s.setSlot_slot_cases i j f with hj | ⟨rfl, hj⟩
  · rw [hj]; exact .refl _ _ _
  · rw [hj]; exact h

theorem State.setLane_kept (s : State) (l : Fin 8) (f : Lane → Lane)
    (h : (s.lanes.get l).queuesOk → (f (s.lanes.get l)).queuesOk) : Kept s (s.setLane l f) where
  counter := le_refl _
  slots _ := .refl _ _ _
  lanes hs m := by
    rw [State.setLane_get]
    split
    · exact h (hs l)
    · exact hs m
  opens := id
  ports := id
  rereads := id
  store := id

theorem State.setPort_kept (s : State) (p : Port) (f : HostPort → HostPort)
    (h : (s.ports.get p).queuesOk → (f (s.ports.get p)).queuesOk) : Kept s (s.setPort p f) where
  counter := le_refl _
  slots _ := .refl _ _ _
  lanes := id
  opens := id
  ports hs q := by
    rw [State.setPort_get]
    split
    · exact h (hs p)
    · exact hs q
  rereads := id
  store := id

theorem State.raise_kept (s : State) (x : Source) (fr : Option Nat) (l : Option (Fin 8)) (d : Int) : Kept s (s.raise x fr l d) := by
  have hoffer (u : State) (k : Packet) : Kept u (u.offerNotice k) := by
    unfold State.offerNotice
    split
    · exact .refl u
    · next hroom =>
      refine u.setPort_kept .a _ fun hq => ⟨hq.1, hq.2.1, ?_⟩
      have hlt : u.ports.a.notices.length < Config.noticeLimit := by simpa using (not_or.mp hroom).2
      simpa [Both.get] using hlt
  unfold State.raise
  dsimp only
  repeat' split
  · exact .refl s
  · exact .trans .of_same (hoffer _ _)
  · exact .of_same

/-! ## Slots (R94 to R102) -/

theorem extendRun_length {l : Fin 8} {k : Fin 4} {c : FillCause} {row : Nat} {es fs : List FillRun}
    (h : extendRun l k c row es = some fs) : fs.length = es.length := by
  induction es generalizing fs with
  | nil => cases h
  | cons e es ih =>
    unfold extendRun at h
    split at h
    · cases h; rfl
    · obtain ⟨gs, hg, rfl⟩ := Option.map_eq_some_iff.mp h
      simp [ih hg]

theorem Slot.addRun_length (x : Slot) (l : Fin 8) (k : Fin 4) (c : FillCause) (row : Nat)
    (h : x.fillRuns.length ≤ Config.fillRunLimit) : (x.addRun l k c row).fillRuns.length ≤ Config.fillRunLimit := by
  unfold Slot.addRun
  split
  · next es he => simpa [extendRun_length he] using h
  · split
    · next hlt => simpa using hlt
    · exact h

@[simp] theorem Slot.addRun_frame (x : Slot) (l : Fin 8) (k : Fin 4) (c : FillCause) (row : Nat) :
    (x.addRun l k c row).state = x.state ∧ (x.addRun l k c row).alloc = x.alloc ∧ (x.addRun l k c row).frame = x.frame ∧
    (x.addRun l k c row).start = x.start ∧ (x.addRun l k c row).stop = x.stop ∧ (x.addRun l k c row).outstanding = x.outstanding ∧
    (x.addRun l k c row).geometry = x.geometry ∧ (x.addRun l k c row).marks = x.marks ∧ (x.addRun l k c row).ready = x.ready ∧
    (x.addRun l k c row).rowCount = x.rowCount ∧ (x.addRun l k c row).retain = x.retain ∧
    (x.addRun l k c row).pendingRereads = x.pendingRereads := by
  unfold Slot.addRun
  repeat' split
  all_goals simp

/-- What a resolution leaves of a slot's record. -/
@[simp] theorem Slot.resolved_frame (x : Slot) (l : Fin 8) (k : Fin 4) (row : Nat) (res : Resolution) :
    (x.resolved l k row res).state = x.state ∧ (x.resolved l k row res).alloc = x.alloc ∧ (x.resolved l k row res).frame = x.frame ∧
    (x.resolved l k row res).start = x.start ∧ (x.resolved l k row res).stop = x.stop ∧
    (x.resolved l k row res).outstanding = x.outstanding ∧ (x.resolved l k row res).geometry = x.geometry ∧
    (x.resolved l k row res).ready = x.ready ∧ (x.resolved l k row res).rowCount = x.rowCount ∧
    (x.resolved l k row res).retain = x.retain ∧ (x.resolved l k row res).pendingRereads = x.pendingRereads := by
  cases res <;> simp [Slot.resolved]

/-- A resolution sets a mark that was UNRESOLVED. -/
theorem Slot.resolved_kept (x : Slot) (m n : Nat) (l : Fin 8) (k : Fin 4) (row : Nat) (res : Resolution)
    (h : x.markOf l k row = .unresolved) : SlotKept m n x (x.resolved l k row res) where
  marks := by
    refine .inr (.inr ⟨by simp, fun l' k' row' hset => ?_⟩)
    rw [Slot.resolved_markOf]
    split
    · next hsame =>
      obtain ⟨rfl, rfl, rfl⟩ := hsame
      exact absurd h hset
    · rfl
  alloc := .inr (by simp)
  runs hx := by
    cases res with
    | written => exact hx
    | filled c => exact x.addRun_length l k c row hx

theorem State.resolve_kept (s : State) (l : Fin 8) (k : Fin 4) (p : Int) (res : Resolution) : Kept s (s.resolve l k p res) := by
  refine .of_slots fun j => ?_
  rcases s.resolve_cases l k p res with ⟨-, h⟩ | ⟨i, -, hmark, hslm⟩
  · rw [h]; exact .refl _ _ _
  · have hslot : (s.resolve l k p res).slot j
        = (s.setSlot i fun _ => (s.slot i).resolved l k (p - (s.slot i).start).toNat res).slot j := by unfold State.slot; rw [hslm]; rfl
    rw [hslot]
    rcases s.setSlot_slot_cases i j _ with hj | ⟨rfl, hj⟩
    · rw [hj]; exact .refl _ _ _
    · rw [hj]; exact Slot.resolved_kept _ _ _ _ _ _ _ hmark

theorem State.fillMark_kept (s : State) (l : Fin 8) (k : Fin 4) (p : Int) (c : FillCause) : Kept s (s.fillMark l k p c) :=
  s.resolve_kept l k p (.filled c)

theorem State.freeSlot_kept (s : State) (i : Nat) : Kept s (s.freeSlot i) := by
  refine .of_slots fun j => ?_
  rw [State.freeSlot_slot]
  split
  · exact .empty _ _ _
  · exact .refl _ _ _

theorem State.freeingTest_kept (s : State) (i : Nat) : Kept s (s.freeingTest i) := by
  rcases s.freeingTest_cases i with ⟨-, h⟩ | ⟨-, -, -, ⟨-, h⟩ | ⟨-, h⟩⟩
  · rw [h]; exact .refl s
  · rw [h]; exact s.setSlot_kept i _ (.of_same rfl rfl le_rfl)
  · rw [h]; exact s.freeSlot_kept i

theorem State.reportFinal_kept (s : State) (r : Fin 8) (i : Nat) : Kept s (s.reportFinal r i) :=
  .trans (s.setSlot_kept i _ (.of_same rfl rfl le_rfl)) (State.freeingTest_kept _ i)

theorem State.rereadEnded_kept (s : State) (i : Nat) : Kept s (s.rereadEnded i) := by
  have hset : Kept s (s.setSlot i fun x => { x with pendingRereads := x.pendingRereads - 1 }) :=
    s.setSlot_kept i _ (.of_same rfl rfl le_rfl)
  unfold State.rereadEnded
  dsimp only
  repeat' split
  · exact hset.trans (State.freeSlot_kept _ i)
  · exact hset.trans (State.freeingTest_kept _ i)
  · exact hset

theorem State.boundSlot_kept (s : State) (i : Nat) (stop : Int) : Kept s (s.boundSlot i stop) :=
  s.setSlot_kept i _ (.of_same rfl rfl le_rfl)

theorem State.closeSlot_kept (s : State) (i rows : Nat) (reason : CloseReason) : Kept s (s.closeSlot i rows reason) := by
  refine .trans (s.setSlot_kept i _ (.of_same rfl rfl ?_)) (State.freeingTest_kept _ i)
  simpa [clipRuns] using List.length_filter_le _ _

theorem State.readinessTest_kept (s : State) : Kept s s.readinessTest := by
  refine .of_slots fun i => ?_
  have hslot : s.readinessTest.slot i = s.readySlot (s.slot i) := by
    have hempty : s.readySlot Slot.empty = Slot.empty := rfl
    simp only [State.slot, State.readinessTest, List.getD_eq_getElem?_getD, List.getElem?_map]
    cases s.slm.slots[i]? with
    | none => exact hempty.symm
    | some x => rfl
  rw [hslot]
  unfold State.readySlot
  split
  · exact .of_same rfl rfl le_rfl
  · exact .refl _ _ _

/-- The record of a slot given to a frame (R90, R124, R116). -/
def State.newSlot (s : State) (frame : Nat) (start : Int) (kind : BoundaryKind) : Slot :=
  { Slot.empty with
    state := .opened, alloc := s.slm.allocCounter + 1, frame := frame, start := start, kind := kind, loop := s.tru.loop,
    geometry := s.geometry, outstanding := s.selecting frame, ready := s.geometry.freshReady }

theorem State.setUpSlot_slm (s : State) (i frame : Nat) (start : Int) (kind : BoundaryKind) :
    (s.setUpSlot i frame start kind).slm = { s.slm with
      allocCounter := s.slm.allocCounter + 1, slots := s.slm.slots.modify i fun _ => s.newSlot frame start kind } :=
  foldl_keeps State.slm (fun s r => s.setRecords r fun ds => ds ++ [Delivery.fresh i _]) (fun s r => by simp) _ _

/-- A slot given to a frame takes the next allocation number (R90). -/
theorem State.setUpSlot_kept (s : State) (i frame : Nat) (start : Int) (kind : BoundaryKind) :
    Kept s (s.setUpSlot i frame start kind) := by
  have hcounter : (s.setUpSlot i frame start kind).slm.allocCounter = s.slm.allocCounter + 1 := by rw [State.setUpSlot_slm]
  refine ⟨by omega, fun j => ?_, by simp, by simp, by simp, by simp, by simp⟩
  have hslot : (s.setUpSlot i frame start kind).slot j = (s.setSlot i fun _ => s.newSlot frame start kind).slot j := by
    unfold State.slot; rw [State.setUpSlot_slm]; rfl
  rw [hslot, hcounter]
  rcases s.setSlot_slot_cases i j fun _ => s.newSlot frame start kind with hj | ⟨rfl, hj⟩
  · rw [hj]; exact .refl _ _ _
  · rw [hj]; exact ⟨.inr (.inl (Nat.lt_succ_self _)), .inl le_rfl, fun _ => Nat.zero_le _⟩

theorem State.evict_kept (s : State) (i : Nat) : Kept s (s.evict i) :=
  .trans .of_same (State.raise_kept _ _ _ _ _)

/-! ## Triggers (R30 to R37) -/

theorem State.offerEntry_kept (s : State) (t : Int) (e : Fin 8) (x : PhaseEntry) (l : Fin 8) : Kept s (s.offerEntry t e x l) := by
  have happend (h : (s.lanes.get l).queue.length < Config.recordsPerLane) : Kept s (s.append l t e x) :=
    s.setLane_kept l _ fun hq => ⟨by simpa using h, hq.2⟩
  have hwithhold : Kept s (s.withhold l t x) :=
    (s.fillMark_kept l x.plane (s.positionAt l t) .behind).trans (.trans .of_same (State.raise_kept _ _ _ _ _))
  unfold State.offerEntry
  dsimp only
  repeat' split
  · next h => exact happend h
  · exact hwithhold
  · next h => exact (happend h).trans (State.fillMark_kept _ _ _ _ _)
  · exact hwithhold
  · exact s.fillMark_kept _ _ _ _
  · exact .refl s
  · exact .refl s

theorem State.issueNext_kept (s : State) : Kept s s.issueNext := by
  rcases s.issueNext_cases with h | ⟨g, e, -, -, h⟩
  · rw [h]; exact .refl s
  · rw [h]
    have hpulse : Kept s (s.pulsed (s.tru.table.get e)) := .of_same rfl rfl rfl rfl rfl
    have hissued (u : State) : Kept u (u.oneIssued g) := .of_same rfl rfl rfl rfl rfl
    exact (hpulse.trans (Kept.foldl _ (fun u l => u.offerEntry_kept g.tick e (s.tru.table.get e) l) indices _)).trans (hissued _)

theorem State.overspeedTick_kept (s : State) (t : Int) : Kept s (s.overspeedTick t) := by
  have hmarks (u : State) (l : Fin 8) : Kept u (u.overspeedMarks t l) := by
    unfold State.overspeedMarks
    split
    · exact .refl u
    · exact Kept.foldl _ (fun v k => v.fillMark_kept l k _ _) _ u
  exact (Kept.foldl _ hmarks indices s).trans (.trans .of_same (State.raise_kept _ _ _ _ _))

theorem State.decideTick_kept (s : State) (t : Int) : Kept s (s.decideTick t) := by
  unfold State.decideTick State.issueGroup
  repeat' split
  · exact .trans .of_same (State.issueNext_kept _)
  · exact s.overspeedTick_kept t
  · exact .refl s

/-! ## Framing (R68 to R82) -/

/-- A counter moved, or framing but for the open list, is nothing kept. -/
theorem State.countFrames_kept (s : State) (f : FrameCounters → FrameCounters) : Kept s (s.countFrames f) := .of_same

theorem State.countLane_kept (s : State) (l : Fin 8) (f : LaneCounters → LaneCounters) : Kept s (s.countLane l f) := .of_same

/-- A change of the open list that lengthens it no further. -/
theorem State.setOpenList_kept (s : State) (fs : List OpenFrame) (h : fs.length ≤ s.frt.openList.length) :
    Kept s { s with frt := { s.frt with openList := fs } } :=
  ⟨le_refl _, fun _ => .refl _ _ _, id, fun hs => h.trans hs, id, id, id⟩

/-- An open frame passes the close test: bounded, and every enabled lane's effective progress at E − 1 (R76). -/
def State.passes (s : State) (high : Int) (f : OpenFrame) : Bool := f.stop.any fun e => s.allReached high (e - 1)

/-- The close of a bounded frame that passes: E − S rows, TRUNCATED or NORMAL (R76). -/
def State.fullClose (s : State) (f : OpenFrame) : State :=
  s.closeSlot f.slot (f.stop.getD f.start - f.start).toNat (if f.truncated then .truncated else .normal)

/-- The open list after its oldest frames have left. -/
def State.withOpenList (s : State) (fs : List OpenFrame) : State := { s with frt := { s.frt with openList := fs } }

theorem closePassing_nil (high : Int) (s : State) : closePassing high [] s = s.withOpenList [] := rfl

/-- The close test takes the oldest frame if it passes, and goes on; and stops there otherwise (R76). -/
theorem closePassing_cons (high : Int) (f : OpenFrame) (fs : List OpenFrame) (s : State) :
    closePassing high (f :: fs) s
      = if s.passes high f then closePassing high fs (s.fullClose f) else s.withOpenList (f :: fs) := by
  obtain ⟨number, slot, start, stop, truncated⟩ := f
  simp only [closePassing, State.passes, State.fullClose]
  cases stop <;> rfl

/-- The close at stop of one frame: in full where it passes, and short otherwise (R82). -/
theorem State.stopClose_eq (s : State) (f : OpenFrame) :
    s.stopClose f = if s.passes s.ptk.high f then s.fullClose f else s.shortClose s.ptk.high .shortStop f := by
  unfold State.stopClose State.passes State.fullClose
  cases f.stop with
  | none => rfl
  | some e => rfl

theorem State.fullClose_kept (s : State) (f : OpenFrame) : Kept s (s.fullClose f) := s.closeSlot_kept _ _ _

theorem closePassing_kept (high : Int) (fs : List OpenFrame) (s : State) (h : fs.length ≤ s.frt.openList.length) :
    Kept s (closePassing high fs s) := by
  induction fs generalizing s with
  | nil => exact s.setOpenList_kept [] h
  | cons f fs ih =>
    rw [closePassing_cons]
    split
    · exact (s.fullClose_kept f).trans (ih _ (by simpa [State.fullClose] using Nat.le_of_succ_le h))
    · exact s.setOpenList_kept _ h

theorem State.closeTest_kept (s : State) (high : Int) : Kept s (s.closeTest high) := closePassing_kept high _ s le_rfl

theorem State.progressed_kept (s : State) : Kept s s.progressed := (s.closeTest_kept _).trans (State.readinessTest_kept _)

theorem State.shortClose_kept (s : State) (high : Int) (c : CloseReason) (f : OpenFrame) : Kept s (s.shortClose high c f) := by
  unfold State.shortClose
  dsimp only
  split
  · exact ((s.closeSlot_kept _ _ _).trans (State.countFrames_kept _ _)).trans (State.raise_kept _ _ _ _ _)
  · exact ((s.freeSlot_kept _).trans (State.countFrames_kept _ _)).trans (State.raise_kept _ _ _ _ _)

theorem State.shortCloseAll_kept (s : State) (high : Int) (c : CloseReason) : Kept s (s.shortCloseAll high c) :=
  (Kept.foldl _ (fun u f => u.shortClose_kept high c f) _ s).trans (State.setOpenList_kept _ [] (Nat.zero_le _))

theorem State.stallClose_kept (s : State) : Kept s s.stallClose := by
  unfold State.stallClose
  split
  · exact .refl s
  · have hseek (u : State) : Kept u { u with frt := u.frt.seek } := .of_same rfl rfl rfl rfl rfl
    exact (s.shortCloseAll_kept _ _).trans (hseek _)

theorem State.rewindFrames_kept (s : State) (b : Int) : Kept s (s.rewindFrames b) := by
  have hseek (u : State) : Kept u { u with frt := { u.frt.seek with rewindHold := true } } := .of_same rfl rfl rfl rfl rfl
  exact (s.shortCloseAll_kept b _).trans (hseek _)

theorem State.stopCloseAll_kept (s : State) : Kept s s.stopCloseAll := by
  have hstop (u : State) (f : OpenFrame) : Kept u (u.stopClose f) := by
    rw [State.stopClose_eq]
    split
    · exact u.fullClose_kept f
    · exact u.shortClose_kept _ _ _
  have hlast (u : State) : Kept u
      { u with frt := { u.frt with openList := [], state := .seeking }, rnc := { u.rnc with closeAtStopMade := true } } :=
    ⟨le_refl _, fun _ => .refl _ _ _, id, fun _ => Nat.zero_le _, id, id, id⟩
  exact (Kept.foldl _ hstop _ s).trans (hlast _)

/-- The newest entry of a list changed leaves as many. -/
theorem length_dropLast_append {α : Type} {xs : List α} {x : α} (h : xs.getLast? = some x) (y : α) :
    (xs.dropLast ++ [y]).length = xs.length := by
  have hne : xs ≠ [] := by rintro rfl; cases h
  have := List.length_pos_iff.mpr hne
  simp; omega

theorem State.boundNewest_kept (s : State) (e : Int) : Kept s (s.boundNewest e) := by
  unfold State.boundNewest
  split
  · exact .refl s
  · next f hf =>
    split
    · exact .refl s
    · dsimp only
      have hlist (y : OpenFrame) := s.setOpenList_kept (s.frt.openList.dropLast ++ [y]) (length_dropLast_append hf y).le
      split
      · exact ((hlist _).trans (State.boundSlot_kept _ _ _)).trans (State.countFrames_kept _ _)
      · exact (hlist _).trans (State.boundSlot_kept _ _ _)

theorem State.truncateNewest_kept (s : State) (t : Int) : Kept s (s.truncateNewest t) := by
  unfold State.truncateNewest
  split
  · exact .refl s
  · next f hf =>
    dsimp only
    split
    · exact ((s.setOpenList_kept _ (length_dropLast_append hf _).le).trans (State.boundSlot_kept _ _ _)).trans
        (State.countFrames_kept _ _)
    · exact .refl s

theorem State.openFrame_kept (s : State) (n : Nat) (p : Int) (k : BoundaryKind) : Kept s (s.openFrame n p k) := by
  have hdrop (c : DropReason) : Kept s (s.dropFrame n c) := .trans .of_same (State.raise_kept _ _ _ _ _)
  rcases s.openFrame_cases n p k with ⟨-, h⟩ | ⟨hroom, ⟨-, h⟩ | ⟨i, t, ha, h⟩⟩
  · rw [h]; exact hdrop _
  · rw [h]; exact hdrop _
  · have halloc : Kept s t ∧ t.frt = s.frt := by
      rcases s.allocate_cases n p k with ⟨j, -, hj⟩ | ⟨-, ⟨-, j, -, hj⟩ | ⟨-, hj⟩⟩
      · rw [ha] at hj
        cases hj
        exact ⟨s.setUpSlot_kept i n p k, by simp⟩
      · rw [ha] at hj
        cases hj
        exact ⟨(s.evict_kept i).trans (State.setUpSlot_kept _ i n p k), by simp⟩
      · rw [ha] at hj; cases hj
    rw [h]
    refine halloc.1.trans ⟨le_refl _, fun _ => .refl _ _ _, id, fun _ => ?_, id, id, id⟩
    have hlt : t.frt.openList.length < Config.openLimit := by rw [halloc.2]; exact hroom
    simpa [State.joined] using hlt

theorem State.takeBoundary_kept (s : State) (t : Int) (k : BoundaryKind) : Kept s (s.takeBoundary t k) := by
  have hpromote : Kept s (s.boundaryBegun k) := by
    have hlanes : Kept s { s with
        tru := s.tru.takeBoundary (decide (s.frt.state = FramingState.seeking)), lanes := s.lanes.map Lane.promote,
        frt := { s.frt with counter := (s.frt.counter + 1) % 4294967296 } } := by
      refine ⟨le_refl _, fun _ => .refl _ _ _, fun hs l => ?_, id, id, id, id⟩
      have hl := hs l
      simp only [Eight.get_map, Lane.promote]
      split <;> exact hl
    unfold State.boundaryBegun
    dsimp only
    split
    · exact hlanes.trans (.trans .of_same (State.raise_kept _ _ _ _ _))
    · exact hlanes
  rw [State.takeBoundary_eq]
  have htracking (u : State) : Kept u (u.tracking t) := .of_same rfl rfl rfl rfl rfl
  exact (((hpromote.trans (State.boundNewest_kept _ _)).trans (State.closeTest_kept _ _)).trans
    (State.openFrame_kept _ _ _ _)).trans (htracking _)

theorem State.judgeTick_kept (s : State) (t : Int) (n : Nat) : Kept s (s.judgeTick t n) := by
  have hspurious (u : State) (m : Nat) : Kept u (u.spurious t m) := by
    unfold State.spurious
    split
    · exact .refl u
    · exact .trans .of_same (State.raise_kept _ _ _ _ _)
  rcases s.judgeTick_cases t n with ⟨-, h⟩ | ⟨-, ⟨kind, spare, -, h⟩ | ⟨spare, -, ⟨-, h⟩ | ⟨-, h⟩⟩⟩
  · rw [h]; exact .refl s
  · rw [h]; exact (s.takeBoundary_kept t kind).trans (hspurious _ _)
  · rw [h]; exact (hspurious s spare).trans (State.truncateNewest_kept _ _)
  · rw [h]; exact hspurious s spare

/-! ## Counts (R3 to R11) -/

theorem State.emitTick_kept (s : State) : Kept s s.emitTick := by
  have hhand (u : State) : Kept u u.handTick :=
    .trans (.trans .of_same (State.judgeTick_kept _ _ _)) ((State.decideTick_kept _ _).trans (State.progressed_kept _))
  unfold State.emitTick
  dsimp only
  split
  · exact .of_same
  · exact .trans .of_same (hhand _)

theorem State.rewind_kept (s : State) : Kept s s.rewind := by
  unfold State.rewind
  dsimp only
  split
  · exact .trans .of_same (State.raise_kept _ _ _ _ _)
  · exact .trans (.trans .of_same (State.raise_kept _ _ _ _ _)) ((State.rewindFrames_kept _ _).trans (State.progressed_kept _))

theorem State.takeCount_kept (s : State) (line : EncLine) : Kept s (s.takeCount line) := by
  have hmotion : Kept s (s.afterMotion line) := by
    unfold State.afterMotion State.moved
    split
    · exact .of_same
    · exact .trans .of_same (State.raise_kept _ _ _ _ _)
  have hcarried (u : State) : Kept u u.carried := .of_same rfl rfl rfl rfl rfl
  have hborrowed (u : State) : Kept u u.borrowed := .of_same rfl rfl rfl rfl rfl
  rw [State.takeCount_eq]
  split
  · refine hmotion.trans ?_
    rcases (s.afterMotion line).forwardCount_cases with ⟨-, h⟩ | ⟨-, -, h⟩ | ⟨-, -, ⟨-, h⟩ | ⟨-, h⟩⟩
    · rw [h]; exact .of_same rfl rfl rfl rfl rfl
    · rw [h]; exact .of_same rfl rfl rfl rfl rfl
    · rw [h]; exact hcarried _
    · rw [h]; exact (hcarried _).trans (State.emitTick_kept _)
  · refine hmotion.trans ?_
    rcases (s.afterMotion line).reverseCount_cases with ⟨-, h⟩ | ⟨-, -, h⟩ | ⟨-, -, ⟨-, h⟩ | ⟨-, -, h⟩⟩
    · rw [h]; exact .of_same rfl rfl rfl rfl rfl
    · rw [h]; exact .of_same rfl rfl rfl rfl rfl
    · rw [h]; exact hborrowed _
    · rw [h]; exact (hborrowed _).trans (State.rewind_kept _)

end Sys2Proof.Machine

/-! # What every step keeps: queue limits, marks, allocation numbers, the store's form -/

namespace Sys2Proof.Machine

/-! ## Lanes (R48 to R58) -/

theorem State.laneUp_kept (s : State) (l : Fin 8) : Kept s (s.laneUp l) := by
  have hup : Kept s (s.setLane l fun n => { n with linkUp := true }) := s.setLane_kept l _ id
  unfold State.laneUp
  dsimp only
  split
  · exact .refl s
  · split
    · exact (hup.trans (State.setLane_kept _ l _ id)).trans (State.raise_kept _ _ _ _ _)
    · exact hup

theorem State.resolveRecord_kept (s : State) (l : Fin 8) (c : FillCause) (q : TrigRecord) : Kept s (s.resolveRecord l c q) := by
  unfold State.resolveRecord
  split
  · exact .refl s
  · exact s.fillMark_kept _ _ _ _

theorem State.loseRecord_kept (s : State) (l : Fin 8) (q : TrigRecord) : Kept s (s.loseRecord l q) :=
  (s.countLane_kept _ _).trans (State.resolveRecord_kept _ _ _ _)

/-- A lane that a link loss has taken DOWN, emptied (R49). -/
def State.laneOut (s : State) (l : Fin 8) : State :=
  s.setLane l fun n => { n with linkUp := false, state := .down, queue := [], placements := [] }

/-- What a link loss takes from a lane is marked LANE_DOWN: its records, oldest first, then its placements (R49). -/
def State.laneOutMarked (s : State) (l : Fin 8) : State :=
  (s.lanes.get l).placements.foldl (fun s y => s.fillMark l y.plane y.position .laneDown)
    ((s.lanes.get l).queue.foldl (fun s q => s.resolveRecord l .laneDown q) (s.laneOut l))

theorem State.laneLost_live {s : State} {l : Fin 8} (h : (s.lanes.get l).state.live = true) :
    s.laneLost l = ((s.laneOutMarked l).raise .laneDown (lane := some l)).progressed := by
  unfold State.laneLost State.laneOutMarked State.laneOut
  dsimp only
  rw [if_pos h, State.setLane_setLane]

theorem State.laneLost_idle {s : State} {l : Fin 8} (h : (s.lanes.get l).state.live = false) :
    s.laneLost l = s.setLane l fun n => { n with linkUp := false } := by
  unfold State.laneLost
  simp [h]

theorem State.laneLost_kept (s : State) (l : Fin 8) : Kept s (s.laneLost l) := by
  cases h : (s.lanes.get l).state.live with
  | false => rw [State.laneLost_idle h]; exact s.setLane_kept l _ id
  | true =>
    have hout : Kept s (s.laneOut l) := s.setLane_kept l _ fun _ => ⟨Nat.zero_le _, Nat.zero_le _⟩
    have hmarked : Kept s (s.laneOutMarked l) :=
      (hout.trans (Kept.foldl _ (fun u q => u.resolveRecord_kept l .laneDown q) _ _)).trans
        (Kept.foldl _ (fun u (y : Placement) => u.fillMark_kept l y.plane y.position .laneDown) _ _)
    rw [State.laneLost_live h]
    exact (hmarked.trans (State.raise_kept _ _ _ _ _)).trans (State.progressed_kept _)

/-- Placements of a lane that go on: no more than are given. -/
theorem State.dropOrphans_kept (s : State) (l : Fin 8) (ys : List Placement)
    (h : (s.lanes.get l).queuesOk → ys.length ≤ Config.lineBuffers) : Kept s (s.dropOrphans l ys) := by
  induction ys generalizing s with
  | nil => exact s.setLane_kept l _ fun hq => ⟨hq.1, Nat.zero_le _⟩
  | cons y ys ih =>
    unfold State.dropOrphans
    split
    · exact s.setLane_kept l _ fun hq => ⟨hq.1, h hq⟩
    · exact (s.countLane_kept l _).trans (ih _ fun hq => Nat.le_of_succ_le (h hq))

theorem State.takeLine_kept (s : State) (l : Fin 8) (q : TrigRecord) (h : Header) (c : CheckMark) (line : List Byte)
    (hroom : (s.lanes.get l).placements.length < Config.lineBuffers) : Kept s (s.takeLine l q h c line) := by
  have hplace (u : State) (hu : Kept s u) (y : Placement) : Kept s (u.dropOrphans l ((s.lanes.get l).placements ++ [y])) :=
    hu.trans (u.dropOrphans_kept l _ fun _ => by simpa using hroom)
  unfold State.takeLine
  split
  · exact (s.countLane_kept _ _).trans (State.resolveRecord_kept _ _ _ _)
  · split
    · exact .refl s
    · unfold State.place
      dsimp only
      repeat' split
      · exact hplace _ (s.countLane_kept _ _) _
      · exact hplace _ (s.countLane_kept _ _) _
      · exact hplace _ (.refl s) _

theorem State.receiveLane_kept (s : State) (l : Fin 8) (bytes : List Byte) : Kept s (s.receiveLane l bytes) := by
  have hmatch (h : Header) (c : CheckMark) (line : List Byte) (hroom : (s.lanes.get l).placements.length < Config.lineBuffers) :
      Kept s (s.matchLine l h c line) := by
    have hdrop (n : Nat) (hq : (s.lanes.get l).queuesOk) : ((s.lanes.get l).queue.drop n).length ≤ Config.recordsPerLane :=
      (List.drop_sublist n _).length_le.trans hq.1
    unfold State.matchLine
    dsimp only
    repeat' split
    · exact s.countLane_kept _ _
    · exact s.countLane_kept _ _
    · refine ((s.setLane_kept l _ fun hq => ⟨hdrop _ hq, hq.2⟩).trans (Kept.foldl _ (fun u q => u.loseRecord_kept l q) _ _)).trans
        (State.takeLine_kept _ _ _ _ _ _ (by simpa using hroom))
  unfold State.receiveLane
  dsimp only
  repeat' split
  · exact s.countLane_kept _ _
  · exact s.countLane_kept _ _
  · exact s.countLane_kept _ _
  · next hroom => exact hmatch _ _ _ (Nat.not_le.mp hroom)

theorem State.expireRecords_kept (s : State) (l : Fin 8) : Kept s (s.expireRecords l) := by
  have hdrop (n : Nat) (hq : (s.lanes.get l).queuesOk) : ((s.lanes.get l).queue.drop n).length ≤ Config.recordsPerLane :=
    (List.drop_sublist n _).length_le.trans hq.1
  exact (s.setLane_kept l _ fun hq => ⟨hdrop _ hq, hq.2⟩).trans (Kept.foldl _ (fun u q => u.loseRecord_kept l q) _ _)

theorem State.finishPlacement_kept {s : State} {l : Fin 8} {y : Placement} {rest : List Placement}
    (h : (s.lanes.get l).placements = y :: rest) : Kept s (s.finishPlacement l y rest) := by
  have hrest (hq : (s.lanes.get l).queuesOk) : rest.length ≤ Config.lineBuffers := by
    have := hq.2
    rw [h] at this
    exact Nat.le_of_succ_le this
  have hwrite (u : State) (pl : Place) : Kept u (u.writeLine l y.plane pl y.pixels) :=
    ⟨le_rfl, fun _ => .refl _ _ _, id, id, id, id, fun hw => u.writeLine_wf hw _ _ _ _⟩
  have hlane := s.setLane_kept l (fun n => { n with placements := rest }) fun hq => ⟨hq.1, hrest hq⟩
  have hdrop (u : State) (hu : u.lanes = (s.setLane l fun n => { n with placements := rest }).lanes) :
      Kept u ((u.countLane l fun c => { c with linesWritten := countUp 1 c.linesWritten }).dropOrphans l rest) :=
    (u.countLane_kept l _).trans (State.dropOrphans_kept _ l rest fun hq => by simpa [hu] using hq.2)
  unfold State.finishPlacement
  dsimp only
  repeat' split
  · exact (hlane.trans ((hwrite _ _).trans (State.resolve_kept _ _ _ _ _))).trans (hdrop _ (by simp))
  · exact hlane.trans (hdrop _ rfl)
  · exact hlane.trans (hdrop _ rfl)

/-! ## Runs (R106, R173 to R175) -/

theorem State.freeRunSlots_kept (s : State) : Kept s s.freeRunSlots := by
  refine Kept.foldl _ (fun u i => ?_) _ s
  split
  · exact .refl u
  · exact u.freeSlot_kept i

theorem State.enterRunState_kept (s : State) (r : RunState) : Kept s (s.enterRunState r) :=
  .trans .of_same (State.raise_kept _ _ _ _ _)

theorem State.startRun_kept (s : State) : Kept s s.startRun := by
  refine (s.freeRunSlots_kept.trans ?_).trans (State.enterRunState_kept _ .running)
  refine ⟨le_rfl, fun _ => .refl _ _ _, fun _ l => ?_, fun _ => Nat.zero_le _, id, id, id⟩
  rw [Eight.get_map]
  exact ⟨Nat.zero_le _, Nat.zero_le _⟩

theorem State.finalize_kept (s : State) (r : Fin 8) (d : Delivery) (x : RecordState) : Kept s (s.finalize r d x) :=
  .trans .of_same (State.reportFinal_kept _ _ _)

theorem State.skipPending_kept (s : State) (p : Port) : Kept s (s.skipPending p) :=
  Kept.foldl _ (fun u r => Kept.foldl _ (fun v d => v.finalize_kept r d .skipped) _ u) _ s

theorem State.stopRun_kept (s : State) : Kept s s.stopRun := by
  have hskip (u : State) (p : Port) : Kept u (u.skipIfDown p) := by
    unfold State.skipIfDown
    split
    · exact u.skipPending_kept p
    · exact .refl u
  have hstop : Kept s { s with
      frt := { s.frt with stopTick := some s.ptk.high, triggersEnded := false },
      rnc := { s.rnc with closeAtStopMade := false } } := .of_same rfl rfl rfl rfl rfl
  have hstopped : Kept s s.stopped := hstop.trans (State.enterRunState_kept _ .draining)
  rw [State.stopRun_eq]
  exact (hstopped.trans (hskip _ _)).trans (hskip _ _)

theorem State.endRun_kept (s : State) : Kept s s.endRun := by
  have hend : Kept s
      { s with ptk := { s.ptk with pendingEdges := 0 }, tru := s.tru.runEnd, lanes := s.lanes.map Lane.runEnd } := by
    refine ⟨le_rfl, fun _ => .refl _ _ _, fun hs l => ?_, id, id, id, id⟩
    have hl := hs l
    simp only [Eight.get_map, Lane.runEnd]
    split <;> exact hl
  exact hend.trans (State.enterRunState_kept _ .config)

/-! ## Ports (R145 to R164) -/

theorem State.settle_kept (s : State) (lead : Bool) : Kept s (s.settle lead) := by
  obtain ⟨hdelivery, hports⟩ := (s.backlog_eq_iff (s.settle lead)).mp (s.settle_backlog lead)
  obtain ⟨-, -, -, ha, hb⟩ := hdelivery
  refine ⟨by simp, fun i => ?_, by simp, by simp, fun hs p => ?_, fun hs p => ?_, by simp⟩
  · have hslot : (s.settle lead).slot i = s.slot i := by simp [State.slot]
    rw [hslot]; exact .refl _ _ _
  · obtain ⟨-, -, hin, hreplies, hnotices⟩ := hports p
    simpa only [HostPort.queuesOk, hin, hreplies, hnotices] using hs p
  · have hlength : ((s.settle lead).dle.rereads.get p).length = (s.dle.rereads.get p).length := by
      cases p
      · simpa [Both.get] using congrArg List.length ha
      · simpa [Both.get] using congrArg List.length hb
    rw [hlength]; exact hs p

theorem State.judgeRest_kept (s : State) (p : Port) : Kept s (s.judgeRest p) := by
  rcases s.judgeRest_cases p with h | ⟨-, -, h⟩
  · rw [h]; exact .refl s
  · rw [h]; exact .trans (s.setPort_kept p _ id) (State.setPort_kept _ p _ id)

theorem State.startWake_kept (s : State) (p : Port) : Kept s (s.startWake p) := by
  unfold State.startWake
  repeat' split
  · exact s.setPort_kept p _ id
  · exact s.setPort_kept p _ id
  · exact .refl s

theorem State.portRecordInForce_kept (s : State) (p : Port) (r : PortRecord) : Kept s (s.portRecordInForce p r) := by
  have hset : Kept s (s.setPort p fun h => { h with record := r, staged := none }) := s.setPort_kept p _ id
  unfold State.portRecordInForce
  dsimp only
  split
  · exact hset.trans (State.judgeRest_kept _ p)
  · exact hset.trans (State.startWake_kept _ p)

theorem fillReserved_length (k : Packet) (xs : List (Option Packet)) : (fillReserved k xs).length = xs.length := by
  induction xs with
  | nil => rfl
  | cons x xs ih => cases x <;> simp [fillReserved, ih]

theorem State.answerHeld_kept (s : State) (p q : Port) : Kept s (s.answerHeld p q) := by
  unfold State.answerHeld
  split
  · exact .refl s
  · dsimp only
    split
    · have hfill (k : Packet) : Kept s (s.setPort q fun h => { h with replies := fillReserved k h.replies }) :=
        s.setPort_kept q _ fun hq => ⟨hq.1, by simpa [fillReserved_length] using hq.2.1, hq.2.2⟩
      exact (hfill _).trans (.of_same rfl rfl rfl rfl rfl)
    · exact .refl s

theorem State.finishTx_kept (s : State) (p : Port) (k : Packet) : Kept s (s.finishTx p k) := by
  have hfree : Kept s (s.setPort p fun h => { h with tx := none }) := s.setPort_kept p _ id
  exact hfree.trans (.of_same rfl rfl rfl rfl rfl)

theorem State.endTile_kept (s : State) (p : Port) : Kept s (s.endTile p) := s.setPort_kept p _ id

theorem State.setRecord_kept (s : State) (r : Fin 8) (a : Nat) (f : Delivery → Delivery) : Kept s (s.setRecord r a f) := .of_same

theorem State.setRereads_kept (s : State) (p : Port) (f : List Reread → List Reread)
    (h : (s.dle.rereads.get p).length ≤ Config.rereadLimit → (f (s.dle.rereads.get p)).length ≤ Config.rereadLimit) :
    Kept s (s.setRereads p f) := by
  refine ⟨le_rfl, fun _ => .refl _ _ _, id, id, id, fun hs q => ?_, id⟩
  rw [State.setRereads_get]
  split
  · exact h (hs p)
  · exact hs q

theorem State.dropRereads_kept (s : State) (p : Port) : Kept s (s.dropRereads p) :=
  (s.setRereads_kept p _ fun _ => Nat.zero_le _).trans (Kept.foldl _ (fun u (e : Reread) => u.rereadEnded_kept e.slot) _ _)

theorem State.portLost_kept (s : State) (p : Port) : Kept s (s.portLost p) := by
  have habort (u : State) (r : Fin 8) : Kept u (u.abortRoute p r) :=
    .trans .of_same (Kept.foldl _ (fun v d => .trans .of_same (State.finalize_kept _ r d .aborted)) _ _)
  have hcut : Kept s (s.setPort p HostPort.cut) := s.setPort_kept p _ fun hq => ⟨hq.1, hq.2.1, Nat.zero_le _⟩
  unfold State.portLost
  dsimp only
  split
  · exact (((hcut.trans (State.raise_kept _ _ _ _ _)).trans (Kept.foldl _ habort _ _)).trans (State.dropRereads_kept _ p)).trans
      (State.skipPending_kept _ p)
  · exact ((hcut.trans (State.raise_kept _ _ _ _ _)).trans (Kept.foldl _ habort _ _)).trans (State.dropRereads_kept _ p)

theorem State.receiveHost_kept (s : State) (p : Port) (bytes : List Byte) : Kept s (s.receiveHost p bytes) := by
  have hcount (u : State) (f : PortCounters → PortCounters) : Kept u (u.countPort p f) := .of_same
  unfold State.receiveHost
  split
  · exact (hcount _ _).trans (State.raise_kept _ _ _ _ _)
  · split
    · exact (hcount _ _).trans (State.raise_kept _ _ _ _ _)
    · next hroom =>
      have hplaced (k : InPacket) : Kept s (s.setPort p fun y => { y with inbound := y.inbound ++ [k] }) :=
        s.setPort_kept p _ fun hq => ⟨by simpa using Nat.not_le.mp hroom, hq.2⟩
      dsimp only
      split
      · exact ((hplaced _).trans (hcount _ _)).trans (State.raise_kept _ _ _ _ _)
      · exact hplaced _

theorem State.segmentSent_kept (s : State) (p : Port) (r : Fin 8) (a n : Nat) (b : Bool) : Kept s (s.segmentSent p r a n b) := by
  unfold State.segmentSent
  dsimp only
  split
  · exact (s.setRecord_kept _ _ _).trans (State.endTile_kept _ p)
  · exact s.setRecord_kept _ _ _

theorem State.rereadSent_kept (s : State) (p : Port) (a n : Nat) (b : Bool) : Kept s (s.rereadSent p a n b) := by
  unfold State.rereadSent
  split
  · exact s.endTile_kept p
  · next e es he =>
    repeat' split
    · exact s.endTile_kept p
    · exact ((s.setRereads_kept p _ fun hs => by rw [he] at hs; exact Nat.le_of_succ_le hs).trans (State.endTile_kept _ p)).trans
        (State.rereadEnded_kept _ _)
    · exact s.setRereads_kept p _ fun hs => by rw [he] at hs; exact hs

/-! ## Commands -/

theorem State.revokeOn_kept (s : State) (a : Nat) (r : Fin 8) : Kept s (s.revokeOn a r) := by
  unfold State.revokeOn
  dsimp only
  repeat' split
  · exact .refl s
  · exact s.setRecord_kept _ _ _
  · exact s.finalize_kept _ _ _
  · exact .refl s
  · exact s.setRecord_kept _ _ _
  · exact .refl s

theorem State.enterStalled_kept (s : State) : Kept s s.enterStalled := by
  have hset : Kept s { s with ptk := { s.ptk with
      motion := .stalled, stallTimer := none, stallCloseTimer := closeTimerFrom s.ptk.scale.stallCloseS s.now } } :=
    .of_same rfl rfl rfl rfl rfl
  exact hset.trans (State.raise_kept _ _ _ _ _)

theorem State.applyScale_kept (s : State) (r : ScaleRecord) : Kept s (s.applyScale r) := by
  have hscale : Kept s { s with ptk := { s.ptk with scale := r, acc := 0, tickTimer := none, interval := none } } :=
    .of_same rfl rfl rfl rfl rfl
  unfold State.applyScale
  dsimp only
  repeat' split
  · exact hscale.trans (State.enterStalled_kept _)
  · exact hscale
  · exact hscale
  · exact .of_same rfl rfl rfl rfl rfl

theorem Accepts.kept {s t : State} {c : InPacket} {i : Instr} (h : Accepts s c i t) : Kept s t := by
  cases h
  case reads => exact .refl s
  case scale => exact s.applyScale_kept _
  case lane => exact s.setLane_kept _ _ id
  case store r hr =>
    refine .of_slots (fun j => ?_) rfl rfl rfl rfl rfl rfl
    have hfree : (List.replicate r.count Slot.empty).getD j Slot.empty = Slot.empty := by
      rw [List.getD_eq_getElem?_getD, List.getElem?_replicate]
      split <;> rfl
    have hslot : State.slot { s with slm := { s.slm with record := r, slots := List.replicate r.count Slot.empty } } j = Slot.empty :=
      hfree
    rw [hslot]
    exact .empty _ _ _
  case port => exact s.portRecordInForce_kept _ _
  case runStart => exact s.startRun_kept
  case runStop => exact s.stopRun_kept
  case pause => exact .trans (.of_same rfl rfl rfl rfl rfl) .of_same
  case revoke => exact Kept.foldl _ (fun u r => u.revokeOn_kept (s.slot _).alloc r) _ s
  case retain => exact s.setSlot_kept _ _ (.of_same rfl rfl le_rfl)
  case releaseOpen => exact s.setSlot_kept _ _ (.of_same rfl rfl le_rfl)
  case releaseClosed => exact .trans (s.setSlot_kept _ _ (.of_same rfl rfl le_rfl)) (State.freeingTest_kept _ _)
  case releaseHeld => exact s.freeSlot_kept _
  case releaseWaits => exact s.setSlot_kept _ _ (.of_same rfl rfl le_rfl)
  case reread hroom =>
    exact .trans (s.setRereads_kept _ _ fun _ => by simpa using hroom) (State.setSlot_kept _ _ _ (.of_same rfl rfl le_rfl))
  case cleared | phases | framing | layout | route | notices | reset | resume | lead | clearNotices | loop | loopStaged =>
    exact .of_same rfl rfl rfl rfl rfl

/-! ## Replies -/

/-- Raising a source leaves the reply queues alone. -/
theorem State.raise_replies (s : State) (x : Source) (fr : Option Nat) (l : Option (Fin 8)) (d : Int) (p : Port) :
    ((s.raise x fr l d).ports.get p).replies = (s.ports.get p).replies := by
  obtain ⟨n, h⟩ := s.raise_ports x fr l d
  rw [h]
  cases p <;> rfl

theorem State.setPort_replies (s : State) (q : Port) (f : HostPort → HostPort) (hf : ∀ h, (f h).replies = h.replies) (p : Port) :
    ((s.setPort q f).ports.get p).replies = (s.ports.get p).replies := by
  rw [State.setPort_get]
  split
  · next h => rw [hf, h]
  · rfl

theorem State.portRecordInForce_replies (s : State) (q : Port) (r : PortRecord) (p : Port) :
    ((s.portRecordInForce q r).ports.get p).replies = (s.ports.get p).replies := by
  unfold State.portRecordInForce
  dsimp only
  split
  · rcases State.judgeRest_cases (s.setPort q fun h => { h with record := r, staged := none }) q with h | ⟨-, -, h⟩
    · rw [h]; simp [State.setPort_replies]
    · rw [h]; simp [State.beginRest, State.send, State.setPort_replies]
  · unfold State.startWake
    repeat' split
    all_goals simp [State.setPort_replies]

/-- No owner touches a reply queue: the reply comes after its effect (R170). -/
theorem Accepts.replies {s t : State} {c : InPacket} {i : Instr} (h : Accepts s c i t) (p : Port) :
    (t.ports.get p).replies = (s.ports.get p).replies := by
  cases h
  case scale r _ _ =>
    unfold State.applyScale State.enterStalled
    dsimp only
    repeat' split
    · exact State.raise_replies _ _ _ _ _ p
    · rfl
    · rfl
    · rfl
  case runStart =>
    have hfree : s.freeRunSlots.ports = s.ports := by simp
    exact (State.raise_replies _ _ _ _ _ p).trans (by rw [← hfree])
  case runStop =>
    have hskip : s.stopRun.ports = s.stopped.ports := by rw [State.stopRun_eq]; simp
    rw [hskip]
    exact State.raise_replies _ _ _ _ _ p
  case port => exact s.portRecordInForce_replies _ _ p
  all_goals simp [State.queueReread]

/-- A reply, or a place reserved for one, joins a reply queue that is not full (R157). -/
theorem State.addReply_kept (s : State) (p : Port) (x : Option Packet) (h : (s.ports.get p).replies.length < Config.replyLimit) :
    Kept s (s.setPort p fun h => { h with replies := h.replies ++ [x] }) :=
  s.setPort_kept p _ fun hq => ⟨hq.1, by simpa using h, hq.2.2⟩

/-! ## A step -/

theorem State.took_kept {s : State} {p : Port} {c : InPacket} {rest : List InPacket} (h : s.takeable p = some (c, rest)) :
    Kept s (s.took p rest) := by
  obtain ⟨hin, -⟩ := State.takeable_some h
  exact s.setPort_kept p _ fun hq => ⟨by have := hq.1; rw [hin] at this; exact Nat.le_of_succ_le this, hq.2⟩

theorem State.took_replies (s : State) (p q : Port) (rest : List InPacket) :
    ((s.took p rest).ports.get q).replies = (s.ports.get q).replies := by
  simp [State.took, State.setPort_replies]

theorem Effect.kept {s u : State} {i : Instr} (h : Effect s i u) (hi : i.isReset = false) : Kept s u := by
  have hsent (p : Port) (k : Packet) (f : HostPort → HostPort) (hf : ∀ h, h.queuesOk → (f h).queuesOk) :
      Kept s ((s.finishTx p k).setPort p f) := (s.finishTx_kept p k).trans (State.setPort_kept _ p f (hf _))
  have hreplyOut (p : Port) (k : Packet) : Kept s (s.replyOut p k) :=
    hsent p k _ fun h hq => ⟨hq.1, (List.drop_sublist 1 h.replies).length_le.trans hq.2.1, hq.2.2⟩
  cases h
  case refused ht _ =>
    obtain ⟨-, hroom, -⟩ := State.takeable_some ht
    exact (State.took_kept ht).trans (State.addReply_kept _ _ _ (by rw [State.took_replies]; exact hroom))
  case accepted ht hk hr ha ho =>
    obtain ⟨-, hroom, -⟩ := State.takeable_some ht
    have hacc := ownerOf_accept ho ha
    exact ((State.took_kept ht).trans hacc.kept).trans
      (State.addReply_kept _ _ _ (by rw [hacc.replies, State.took_replies]; exact hroom))
  case held p code owner c rest t ht hk hr ha ho =>
    obtain ⟨-, hroom, -⟩ := State.takeable_some ht
    obtain ⟨-, q, r, -, -, rfl⟩ := ownerOf_hold ho ha
    have hstaged (v : State) : Kept v (v.setPort q fun h => { h with staged := some r }) := v.setPort_kept q _ id
    have hplace := State.addReply_kept ((s.took p rest).setPort q fun h => { h with staged := some r }) p none
      (by rw [State.setPort_replies _ q _ (by intro; rfl), State.took_replies]; exact hroom)
    exact ((State.took_kept ht).trans (hstaged _)).trans (hplace.trans (.of_same rfl rfl rfl rfl rfl))
  case commandReset => simp [Instr.isReset] at hi
  case count line => exact s.takeCount_kept line
  case encoderError => exact .of_same rfl rfl rfl rfl rfl
  case indexEdge =>
    unfold State.indexTaken
    dsimp only
    split <;> exact .of_same rfl rfl rfl rfl rfl
  case indexIgnored => exact .refl s
  case stall u hm hu =>
    exact .trans (t := s.advanceTo (u + s.ptk.scale.stallMs * Config.unitsPerMs)) (.of_same rfl rfl rfl rfl rfl)
      (State.enterStalled_kept _)
  case stallClose u hm hu hc => exact .trans (t := s.stallCloseOver u) (.of_same rfl rfl rfl rfl rfl) (State.stallClose_kept _)
  case stallCloseConfig => exact .of_same rfl rfl rfl rfl rfl
  case entryIssue g hg hlt =>
    exact .trans (t := s.advanceTo (s.groupTime g g.issued)) (.of_same rfl rfl rfl rfl rfl)
      ((State.issueNext_kept _).trans (State.progressed_kept _))
  case strobePulseEnd => exact .of_same rfl rfl rfl rfl rfl
  case groupDone => exact .of_same rfl rfl rfl rfl rfl
  case triggersEnded => exact .of_same rfl rfl rfl rfl rfl
  case laneLinkUp l => exact s.laneUp_kept l
  case laneLinkLoss l => exact s.laneLost_kept l
  case lanePacketReceived l bytes => exact (s.receiveLane_kept l bytes).trans (State.progressed_kept _)
  case lineTimeout l q qs hq =>
    exact .trans (t := s.advanceTo q.deadline) (.of_same rfl rfl rfl rfl rfl)
      ((State.expireRecords_kept _ _).trans (State.progressed_kept _))
  case placementComplete hy hin => exact (State.finishPlacement_kept hy).trans (State.progressed_kept _)
  case rewindHoldClear => exact .of_same rfl rfl rfl rfl rfl
  case closeAtStop => exact s.stopCloseAll_kept
  case endOfDraining => exact s.endRun_kept
  case portLinkUp p hl => exact (s.dropRereads_kept p).trans (State.setPort_kept _ p _ id)
  case portLinkLoss p hl => exact s.portLost_kept p
  case hostPacketReceived p bytes hl => exact s.receiveHost_kept p bytes
  case replySent p k hx => exact hreplyOut p k
  case resetReplySent k hx hp he => exact (hreplyOut .a k).trans (.of_same rfl rfl rfl rfl rfl)
  case noticeSent k hx =>
    exact hsent .a k _ fun h hq => ⟨hq.1, hq.2.1, (List.drop_sublist 1 h.notices).length_le.trans hq.2.2⟩
  case frameOpenSent p r alloc k hx => exact (s.finishTx_kept p k).trans (State.setRecord_kept _ _ _ _)
  case tileSegmentSent p r alloc rows last k hx => exact (s.finishTx_kept p k).trans (State.segmentSent_kept _ _ _ _ _ _)
  case tileAbortSent p r alloc k hx =>
    exact ((s.finishTx_kept p k).trans (State.setRecord_kept _ _ _ _)).trans (State.endTile_kept _ _)
  case frameEndSent p r alloc revoked k d hx hd => exact (s.finishTx_kept p k).trans (State.finalize_kept _ _ _ _)
  case frameEndLost p r alloc revoked k hx hd => exact s.finishTx_kept p k
  case rereadSegmentSent p alloc rows last k hx => exact (s.finishTx_kept p k).trans (State.rereadSent_kept _ _ _ _ _)
  case stagedPortRecord p r hr ht =>
    exact ((s.portRecordInForce_kept p r).trans (State.answerHeld_kept _ _ _)).trans (State.answerHeld_kept _ _ _)
  case idleTimerExpiry => exact .of_same rfl rfl rfl rfl rfl
  case restSentWaking p k hx =>
    have hout : Kept s (s.restOut p k) := hsent p k _ fun _ => id
    exact hout.trans (State.startWake_kept _ _)
  case restSentResting p k hx => exact hsent p k _ fun _ => id
  case wakeTimerExpiry p u hl hu =>
    exact .trans (t := s.advanceTo (u + Config.wakeUs * Config.unitsPerUs)) (.of_same rfl rfl rfl rfl rfl)
      (State.setPort_kept _ p _ id)

/-- A step but a reset keeps. -/
theorem exec_kept {i : Instr} {s t : State} (h : exec i s = .next t) (hi : i.isReset = false) : Kept s t := by
  cases exec_answered h with
  | same h => rw [h]; exact .refl s
  | effect _ he h => rw [h]; exact (he.kept hi).trans (State.settle_kept _ _)
  | power hreset _ => simp [hi] at hreset

/-- What a reset makes of every block but the ports. -/
theorem exec_reset {i : Instr} {s t : State} (h : exec i s = .next t) (hi : i.isReset = true) :
    t = s ∨ (∃ on a b, t = State.powerUpValues s.pending s.now s.slm.store on a b) ∨ ∃ lead, t = s.commandResetState.settle lead := by
  cases exec_answered h with
  | same h => exact .inl h
  | effect _ he h =>
    obtain ⟨rfl, rfl⟩ := he.of_isReset hi
    exact .inr (.inr ⟨_, h⟩)
  | power _ h => exact .inr (.inl ⟨_, _, _, h⟩)

/-! ## The queues (O54) -/

/-- A property of the slots' records that the cleared record has holds of the table as it does of every number. -/
theorem State.forall_slots_iff (s : State) (P : Slot → Prop) (hempty : P Slot.empty) :
    (∀ x ∈ s.slm.slots, P x) ↔ ∀ i, P (s.slot i) := by
  constructor
  · intro h i
    unfold State.slot
    rw [List.getD_eq_getElem?_getD]
    cases hi : s.slm.slots[i]? with
    | none => exact hempty
    | some x => exact h x (List.mem_of_getElem? hi)
  · intro h x hx
    obtain ⟨i, hi, rfl⟩ := List.mem_iff_getElem.mp hx
    have := h i
    rwa [State.slot, List.getD_eq_getElem?_getD, List.getElem?_eq_getElem hi] at this

theorem Both.forall_iff {α : Type} (P : α → Prop) (b : Both α) : (∀ p, P (b.get p)) ↔ P b.a ∧ P b.b :=
  ⟨fun h => ⟨h .a, h .b⟩, fun ⟨ha, hb⟩ p => by cases p; exacts [ha, hb]⟩

theorem Kept.queuesOk {s t : State} (h : Kept s t) (hs : s.queuesOk) : t.queuesOk := by
  obtain ⟨hlanes, hopens, ha, hb, hra, hrb, hruns⟩ := hs
  obtain ⟨hta, htb⟩ := (Both.forall_iff HostPort.queuesOk t.ports).mp
    (h.ports ((Both.forall_iff HostPort.queuesOk s.ports).mpr ⟨ha, hb⟩))
  obtain ⟨hrta, hrtb⟩ := (Both.forall_iff (fun es => es.length ≤ Config.rereadLimit) t.dle.rereads).mp
    (h.rereads ((Both.forall_iff (fun es => es.length ≤ Config.rereadLimit) s.dle.rereads).mpr ⟨hra, hrb⟩))
  have hsruns := (s.forall_slots_iff (fun x => x.fillRuns.length ≤ Config.fillRunLimit) (Nat.zero_le _)).mp hruns
  exact ⟨h.lanes hlanes, h.opens hopens, hta, htb, hrta, hrtb,
    (t.forall_slots_iff (fun x => x.fillRuns.length ≤ Config.fillRunLimit) (Nat.zero_le _)).mpr fun i => (h.slots i).runs (hsruns i)⟩

theorem powerUpValues_queuesOk (pending : List Instr) (now : Nat) (store : Memory) (on a b : Bool) :
    (State.powerUpValues pending now store on a b).queuesOk := by
  refine ⟨fun l => ?_, Nat.zero_le _, ?_, ?_, Nat.zero_le _, Nat.zero_le _, fun x hx => ?_⟩
  · simp [State.powerUpValues, Lane.reset]
  · exact ⟨Nat.zero_le _, Nat.zero_le _, Nat.zero_le _⟩
  · exact ⟨Nat.zero_le _, Nat.zero_le _, Nat.zero_le _⟩
  · obtain rfl := List.eq_of_mem_replicate hx
    exact Nat.zero_le _

theorem State.commandResetState_queuesOk {s : State} (hs : s.queuesOk) : s.commandResetState.queuesOk := by
  obtain ⟨-, -, -, hb, -⟩ := hs
  obtain ⟨-, hopens, -, -, hra, hrb, hruns⟩ := powerUpValues_queuesOk s.pending s.now s.slm.store s.pwrOk s.ptk.quadA s.ptk.quadB
  refine ⟨fun l => ?_, hopens, ?_, ?_, hra, hrb, hruns⟩
  · simp [State.commandResetState, Lane.reset]
  · exact ⟨Nat.zero_le _, Nat.zero_le _, Nat.zero_le _⟩
  · exact ⟨hb.1, hb.2.1, Nat.zero_le _⟩

theorem exec_queuesOk {i : Instr} {s t : State} (h : exec i s = .next t) (hs : s.queuesOk) : t.queuesOk := by
  cases hi : i.isReset with
  | false => exact (exec_kept h hi).queuesOk hs
  | true =>
    rcases exec_reset h hi with h | ⟨on, a, b, h⟩ | ⟨lead, h⟩
    · rwa [h]
    · rw [h]; exact powerUpValues_queuesOk ..
    · rw [h]; exact (State.settle_kept _ _).queuesOk (State.commandResetState_queuesOk hs)

/-- Settles O54: every effect but a reset keeps the limits, and a reset empties the queues or leaves them. -/
theorem queuesKeepTheirLimits : Obligations.QueuesKeepTheirLimits := by
  intro s t hs h
  obtain ⟨c, rest, hexec⟩ | hidle := step_cases h
  · exact exec_queuesOk hexec hs
  · rw [hidle]; exact hs

/-! ## The marks (O56) -/

/-- After a reset no slot holds a frame. -/
theorem reset_slot (pending : List Instr) (now : Nat) (store : Memory) (on a b : Bool) (i : Nat) :
    (State.powerUpValues pending now store on a b).slot i = Slot.empty := by
  have hfree : (List.replicate 8 Slot.empty).getD i Slot.empty = Slot.empty := by
    rw [List.getD_eq_getElem?_getD, List.getElem?_replicate]
    split <;> rfl
  exact hfree

theorem exec_marks {c : Instr} {s t : State} (h : exec c s = .next t) (hs : s.allocOk) (i : Nat) (l : Fin 8) (k : Fin 4) (row : Nat)
    (h0 : (s.slot i).alloc ≠ 0) (ha : (t.slot i).alloc = (s.slot i).alloc) (hset : (s.slot i).markOf l k row ≠ .unresolved) :
    (t.slot i).markOf l k row = (s.slot i).markOf l k row := by
  have hle : (s.slot i).alloc ≤ s.slm.allocCounter := (s.forall_slots_iff (fun x => x.alloc ≤ s.slm.allocCounter) (Nat.zero_le _)).mp hs i
  cases hc : c.isReset with
  | false =>
    rcases ((exec_kept h hc).slots i).marks with hzero | hlt | ⟨-, hmarks⟩
    · exact absurd (ha ▸ hzero) h0
    · omega
    · exact hmarks l k row hset
  | true =>
    have hempty : ∀ u : State, u.slot i = Slot.empty → t.slot i = u.slot i → False := fun u hu htu => by
      rw [htu, hu] at ha
      exact h0 ha.symm
    rcases exec_reset h hc with h | ⟨on, a, b, h⟩ | ⟨lead, h⟩
    · rw [h]
    · exact (hempty _ (reset_slot ..) (by rw [h])).elim
    · exact (hempty s.commandResetState (reset_slot s.pending s.now s.slm.store s.pwrOk s.ptk.quadA s.ptk.quadB i)
        (by rw [h]; simp [State.slot])).elim

/-- Settles O56: over the steps, a slot's record is cleared, given to a new frame, or keeps the marks it has. -/
theorem marksAreSetOnce : Obligations.MarksAreSetOnce := by
  intro s t i l k row hs h h0 ha hset
  obtain ⟨c, rest, hexec⟩ | hidle := step_cases h
  · exact exec_marks hexec hs i l k row h0 ha hset
  · rw [hidle]; rfl

end Sys2Proof.Machine

/-! # Steps and the taking of commands (R157, R168, R169) -/

namespace Sys2Proof.Machine

/-- Settles O60: the reset state is the state of power-up with nothing in it. -/
theorem resetMeetsTheInvariants : Obligations.ResetMeetsTheInvariants := by
  have hfree : ∀ x ∈ State.reset.slm.slots, x = Slot.empty := fun x hx => List.eq_of_mem_replicate hx
  have hrecords (r : Fin 8) : State.reset.dle.records.get r = [] := Eight.get_const _ _
  have hopens (p : Port) (h : HostPort) (hh : h.tx = none) : State.reset.opensOk p h :=
    ⟨fun _ => hh, by rw [hh]; rfl, fun r d hd => by rw [hrecords] at hd; cases hd⟩
  refine ⟨powerUpValues_positionOk .., powerUpValues_queuesOk .., reset_store_wf, fun x hx => ?_, ⟨?_, ?_⟩, ⟨?_, ?_, ?_⟩, fun r => ?_,
    hopens .a _ rfl, hopens .b _ rfl⟩
  · rw [hfree x hx]; exact Nat.zero_le _
  · exact List.nodup_nil
  · exact fun f hf => absurd hf List.not_mem_nil
  · have hnone : State.reset.slm.slots.filter (fun x => x.state ≠ .free) = [] := by decide
    rw [hnone]
    exact List.nodup_nil
  · exact fun x hx hstate => absurd (hfree x hx ▸ rfl) hstate
  · exact fun _ x hx => .inl (hfree x hx ▸ rfl)
  · rw [hrecords]
    exact ⟨List.nodup_nil, fun d hd => absurd hd List.not_mem_nil⟩

/-- Settles O1: by the two cases of a step. -/
theorem stepTakesTheFrontCommand : Obligations.StepTakesTheFrontCommand := by
  refine ⟨fun c rest s h => ?_, fun s h => ?_⟩
  · unfold step; rw [h]
  · unfold step
    split
    · next hp => rw [h] at hp; cases hp
    · rfl

/-- The step of a command is the taking of a packet with the owner of its code. -/
theorem exists_owner_exec {i : Instr} {p : Port} {code : Nat} (h : i.command = some (p, code)) :
    ∃ owner, ownerOf i = some (p, code, owner) ∧ ∀ s, exec i s = s.whenPowered fun s => s.command p code owner := by
  obtain ⟨owner, ho⟩ := exists_owner_of_command h
  exact ⟨owner, ho, exec_owner ho⟩

/-- Settles O5: whatever its owner, a command that fails a check is refused before the owner is asked. -/
theorem refusedCommandsOnlyReply : Obligations.RefusedCommandsOnlyReply := by
  intro i p code s c rest result hi htake hk hr
  obtain ⟨owner, -, hexec⟩ := exists_owner_exec hi
  rw [hexec, State.whenPowered_high _ _ htake.1,
    State.command_refused htake hk (by rw [State.took_firstRefusal]; exact hr)]

/-- Settles O7: a kind that is no command code has no row, so check 1 or check 2 refuses the packet. -/
theorem unknownKindsAreAnswered : Obligations.UnknownKindsAreAnswered := by
  intro p s c rest htake hk
  have hrow := commandRow_none hk
  have hrefusal : (s.took p rest).firstRefusal p c = some (if c.check = .fail then .badCheck else .unknownKind) := by
    unfold State.firstRefusal
    rw [hrow]
    split <;> rfl
  have harm : exec (.unknownKind p) s = execUnknownKind p s := rfl
  rw [harm, execUnknownKind, State.whenPowered_high _ _ htake.1, State.takeable_of_mayTake htake]
  dsimp only
  rw [if_pos hrow]
  have hanswer : (s.took p rest).answer p c (fun _ _ => .refuse .unknownKind)
      = (s.took p rest).reply p c (if c.check = .fail then .badCheck else .unknownKind) [] := by
    unfold State.answer
    rw [hrefusal]
  exact congrArg (fun t => Host.Outcome.next (State.settle t false)) hanswer

/-- Settles O8: what is not taken leaves the state as it was. -/
theorem commandsWaitUntilTheyCanBeTaken : Obligations.CommandsWaitUntilTheyCanBeTaken := by
  intro i p code s hi hwait
  obtain ⟨owner, -, hexec⟩ := exists_owner_exec hi
  have hstays : s.command p code owner = s := by
    unfold State.command
    split
    · rfl
    · next c rest ht =>
      obtain ⟨hin, hroom, hhand, hreset⟩ := State.takeable_some ht
      rcases hwait with hkind | hfull | hheld | hpending
      · rw [if_neg (hkind c rest hin)]
      · exact absurd hroom (Nat.not_lt.mpr hfull)
      · simp [hhand] at hheld
      · exact absurd hpending hreset
  rw [hexec]
  unfold State.whenPowered
  split
  · exact congrArg Host.Outcome.next hstays
  · rfl

/-- The catalogue's columns agree with the lists of 10.2. -/
theorem catalogue_columns : ∀ row ∈ catalogue, (row.fromB = false ↔ row.code ∈ deniedFromB)
    ∧ (row.acceptedIn = .config ↔ row.code ∈ configCodes) ∧ (row.acceptedIn = .running ↔ row.code = 0x21)
    ∧ (row.code = 0x15 → row.acceptedIn = .config) := by decide

/-- Check 5 fails in three ways: outside CONFIG, outside RUNNING, and for SET_STORE while a slot is HELD (10.2, R86). -/
theorem State.accepts_iff (s : State) {row : CommandRow} (hrow : row ∈ catalogue) :
    s.accepts row = true ↔ ¬ (row.code ∈ configCodes ∧ s.rnc.runState ≠ .config ∨ row.code = 0x21 ∧ s.rnc.runState ≠ .running
      ∨ row.code = 0x15 ∧ 0 < s.slotsIn .held) := by
  obtain ⟨-, hconfig, hrunning, hstore⟩ := catalogue_columns row hrow
  rw [← hconfig, ← hrunning]
  unfold State.accepts
  cases hin : row.acceptedIn with
  | any => simp [hin] at hstore ⊢; exact fun h => absurd h hstore
  | running =>
    have hne : row.code ≠ 0x15 := fun h => by simp [hin] at hstore; exact hstore h
    simp [hne]
  | config =>
    have hcode : codeSetStore = 0x15 := rfl
    simp [hcode, Nat.pos_iff_ne_zero]
    tauto

/-- Settles O6: the chain of checks, with the catalogue's columns read as the lists of 10.2. -/
theorem checksAreJudgedInOrder : Obligations.ChecksAreJudgedInOrder := by
  intro s p c
  refine ⟨fun h => ?_, fun hc hk => ?_, fun row hrow hc hk => ?_⟩
  · unfold State.firstRefusal; rw [if_pos h]
  · unfold State.firstRefusal; rw [if_neg hc, commandRow_none hk]
  · obtain ⟨hdenied, -⟩ := catalogue_columns row hrow
    have hchain : s.firstRefusal p c = if c.length ≠ row.length then some .badLength
        else if p = .b ∧ row.code ∈ deniedFromB then some .denied else if ¬ s.accepts row = true then some .busy else none := by
      unfold State.firstRefusal
      rw [if_neg hc, hk, commandRow_of_mem hrow]
      simp only [← hdenied, Bool.not_eq_true]
    rw [hchain]
    refine ⟨fun h => if_pos h, fun h => ?_⟩
    rw [if_neg (not_not.mpr h)]
    refine ⟨fun h => if_pos h, fun h => ?_⟩
    rw [if_neg h]
    have haccepts := s.accepts_iff hrow
    exact ⟨fun h => if_pos fun ha => haccepts.mp ha h, fun h => if_neg (not_not.mpr (haccepts.mpr h))⟩

end Sys2Proof.Machine

/-! # Setup commands: what they read, refuse and set (R1 to R123, R180, R188) -/

namespace Sys2Proof.Machine

/-! ## A command on a packet, taken -/

section Taken

variable {s t : State} {i : Instr} {p : Port} {code length : Nat} {owner : InPacket → State → Answer} {c : InPacket}
  {rest : List InPacket} {record : List Byte} {result : Result}

theorem exec_accept (ho : ownerOf i = some (p, code, owner)) (h : s.mayTake p c rest) (hp : c.passes code length)
    (hr : s.firstRefusal p c = none) (ha : owner c (s.took p rest) = .accept t record) :
    exec i s = .next (t.answered p c record) := by
  rw [exec_owner ho]; exact State.whenPowered_accept h hp hr ha

theorem exec_refuse (ho : ownerOf i = some (p, code, owner)) (h : s.mayTake p c rest) (hp : c.passes code length)
    (hr : s.firstRefusal p c = none) (ha : owner c (s.took p rest) = .refuse result) :
    exec i s = .next ((s.took p rest).refuses p c result) := by
  rw [exec_owner ho]; exact State.whenPowered_refuse h hp hr ha

theorem exec_hold (ho : ownerOf i = some (p, code, owner)) (h : s.mayTake p c rest) (hp : c.passes code length)
    (hr : s.firstRefusal p c = none) (ha : owner c (s.took p rest) = .hold t) :
    exec i s = .next (t.holds p c) := by
  rw [exec_owner ho]; exact State.whenPowered_hold h hp hr ha

end Taken

/-- A command of CONFIG from port A passes check 5 in CONFIG, SET_STORE with no slot HELD (10.2, R86). -/
theorem State.admits_config {s : State} {c : InPacket} {row : CommandRow} (hrow : row ∈ catalogue) (hin : row.acceptedIn = .config)
    (hp : c.passes row.code row.length) (hs : s.rnc.runState = .config) (hheld : row.code ≠ codeSetStore ∨ s.slotsIn .held = 0) :
    s.firstRefusal .a c = none := by
  refine State.firstRefusal_none hrow hp (fun h => by cases h) ?_
  simpa [State.accepts, hin, hs] using hheld

/-- A command of every run state passes check 5, from port B where its row allows it (10.2). -/
theorem State.admits_any {s : State} {p : Port} {c : InPacket} {row : CommandRow} (hrow : row ∈ catalogue)
    (hin : row.acceptedIn = .any) (hb : p = .b → row.fromB = true) (hp : c.passes row.code row.length) : s.firstRefusal p c = none :=
  State.firstRefusal_none hrow hp hb (by simp [State.accepts, hin])

/-! ## GET_CONFIG (R180) -/

theorem asPort_portCode (q : Port) : asPort (portCode q) = some q := by cases q <;> rfl

theorem asFin_val {n : Nat} (l : Fin n) : asFin n l.val = some l := by simp [asFin]

theorem asFin_none {n v : Nat} (h : n ≤ v) : asFin n v = none := by simp [asFin, Nat.not_lt.mpr h]

theorem asPort_none {v : Nat} (h : 2 ≤ v) : asPort v = none := by
  match v, h with
  | v + 2, _ => rfl

/-- A selector past the last names nothing (12.2). -/
theorem readSelector_none_of_selector {bs : List Byte} (h : 9 ≤ byteAt bs 0) : readSelector bs = none := by
  unfold readSelector
  dsimp only
  generalize byteAt bs 0 = v at h
  match v, h with
  | v + 9, _ => rfl

/-- Settles O12: a case for each selector. -/
theorem getConfigReturnsTheRecordNamed : Obligations.GetConfigReturnsTheRecordNamed := by
  intro p s c rest l q htake hp
  have hr : s.firstRefusal p c = none := State.admits_any (row := ⟨codeGetConfig, 2, .any, true⟩) (by decide) rfl (fun _ => rfl) hp
  have hread (x : Selector) (h : readSelector c.payload = some x) :
      exec (.getConfig p) s = .next ((s.took p rest).answered p c ((s.took p rest).configRecord x)) :=
    exec_accept rfl htake hp hr (by unfold getConfigOwner; rw [h])
  have hrefuse (h : readSelector c.payload = none) : exec (.getConfig p) s = .next ((s.took p rest).refuses p c .badValue) :=
    exec_refuse rfl htake hp hr (by unfold getConfigOwner; rw [h])
  refine ⟨fun h => ?_, fun h => ?_, fun h hl => ?_, fun h => ?_, fun h => ?_, fun h => ?_, fun h hl => ?_, fun h hq => ?_, fun h => ?_,
    fun h => ?_⟩
  · exact hread .scale (by simp only [readSelector, h])
  · exact hread .phase (by simp only [readSelector, h])
  · exact hread (.lane l) (by simp only [readSelector, h, hl, asFin_val]; rfl)
  · exact hread .framing (by simp only [readSelector, h])
  · exact hread .layout (by simp only [readSelector, h])
  · exact hread .store (by simp only [readSelector, h])
  · exact hread (.route l) (by simp only [readSelector, h, hl, asFin_val]; rfl)
  · have hrecord : ((s.took p rest).ports.get q).portRecord q = (s.ports.get q).portRecord q := by
      simp only [State.took, State.setPort_get]
      split
      · next hqp => rw [hqp]; rfl
      · rfl
    rw [← hrecord]
    exact hread (.port q) (by simp only [readSelector, h, hq, asPort_portCode]; rfl)
  · exact hread .notice (by simp only [readSelector, h])
  · refine hrefuse ?_
    rcases h with h | ⟨h | h, hl⟩ | ⟨h, hl⟩
    · exact readSelector_none_of_selector h
    · simp only [readSelector, h, asFin_none hl]; rfl
    · simp only [readSelector, h, asFin_none hl]; rfl
    · simp only [readSelector, h, asPort_none hl]; rfl

end Sys2Proof.Machine

/-! # Setup commands in force (R2, R26 to R28, R47, R66, R86, R108, R123, R136) -/

namespace Sys2Proof.Machine

variable {s : State} {c : InPacket} {rest : List InPacket}

/-- A command of CONFIG, but SET_STORE, passes checks 1 to 5 in CONFIG from port A. -/
theorem State.admits_setup {row : CommandRow} (hrow : row ∈ catalogue) (hin : row.acceptedIn = .config)
    (hcode : row.code ≠ codeSetStore) (hs : s.rnc.runState = .config) (hp : c.passes row.code row.length) :
    s.firstRefusal .a c = none :=
  State.admits_config hrow hin hp hs (.inl hcode)

/-! ## SET_SCALE (R2) -/

theorem setScale_refusal (hs : s.rnc.runState = .config) (hp : c.passes 0x10 16) : s.firstRefusal .a c = none :=
  State.admits_setup (row := ⟨codeSetScale, 16, .config, false⟩) (by decide) rfl (by decide) hs hp

theorem setScaleOwner_takes {r : ScaleRecord} (t : State) (hr : readScale c.payload = some r) (hc : r.step ≤ r.pitch) :
    setScaleOwner c t = .accept (t.applyScale r) [] := by
  simp only [setScaleOwner, hr, if_neg (Nat.not_lt.mpr hc)]

/-- Settles O14: the three cases of R2 by the motion state and the stall timer. -/
theorem setScaleTakesEffect : Obligations.SetScaleTakesEffect := by
  intro s c rest r htake hp hs hr hc
  have hexec : exec (.setScale .a) s = .next (((s.took .a rest).applyScale r).answered .a c []) :=
    exec_accept rfl htake hp (setScale_refusal hs hp) (setScaleOwner_takes _ hr hc)
  have hstate : (s.took .a rest).ptk = s.ptk ∧ (s.took .a rest).now = s.now := ⟨rfl, rfl⟩
  refine ⟨fun hm => ?_, fun t hm ht hlt => ?_, fun t hm ht hle => ?_⟩
  · rw [hexec]; simp only [State.applyScale, hstate, hm, closeTimerFrom]
  · rw [hexec]
    have : ¬ r.stallMs * Config.unitsPerMs ≤ (s.took .a rest).elapsed t := Nat.not_le.mpr hlt
    simp only [State.applyScale, hstate, hm, ht, if_neg this]
  · rw [hexec]
    have : r.stallMs * Config.unitsPerMs ≤ (s.took .a rest).elapsed t := hle
    simp only [State.applyScale, hstate, hm, ht, if_pos this, State.enterStalled, closeTimerFrom]

/-! ## SET_PHASES and SET_LOOP (R24 to R28) -/

theorem setPhases_refusal (hs : s.rnc.runState = .config) (hp : c.passes 0x11 36) : s.firstRefusal .a c = none :=
  State.admits_setup (row := ⟨codeSetPhases, 36, .config, false⟩) (by decide) rfl (by decide) hs hp

/-- Settles O16: the three answers of SET_LOOP, under its checks in their order. -/
theorem setLoopIsAppliedOrStaged : Obligations.SetLoopIsAppliedOrStaged := by
  intro s c rest loop htake hp
  have hr : s.firstRefusal .a c = none :=
    State.admits_any (row := ⟨codeSetLoop, 2, .any, false⟩) (by decide) rfl (fun h => by cases h) hp
  refine ⟨fun h => exec_refuse rfl htake hp hr (by simp only [setLoopOwner, h]), fun h => ⟨fun hok => ?_, fun hok => ⟨fun hs => ?_,
    fun hs hm => ?_, fun hs hm => ?_⟩⟩⟩
  · exact exec_refuse rfl htake hp hr (by simp [setLoopOwner, h, hok])
  · exact exec_accept rfl htake hp hr (by simp [setLoopOwner, h, hok, hs])
  · exact exec_accept rfl htake hp hr (by simp [setLoopOwner, h, hok, hs, hm])
  · exact exec_refuse rfl htake hp hr (by simp [setLoopOwner, h, hok, hs, hm])

/-! ## SET_LANE (R47) -/

theorem setLane_refusal (hs : s.rnc.runState = .config) (hp : c.passes 0x12 16) : s.firstRefusal .a c = none :=
  State.admits_setup (row := ⟨codeSetLane, 16, .config, false⟩) (by decide) rfl (by decide) hs hp

/-- The table of R47, as SET_LANE applies it. -/
theorem laneStateAfter_eq (before : LaneState) (enable linkUp : Bool) :
    laneStateAfter before enable linkUp =
      if enable = false then .disabled
      else if before = .disabled then (if linkUp then .ready else .down)
      else before := by
  cases enable <;> cases before <;> rfl

/-- Settles O17: the lane's state by the table of R47. -/
theorem setLaneTakesEffect : Obligations.SetLaneTakesEffect := by
  intro s c rest l r htake hp hs hr hfits
  have hno : ¬ (r.enable = true ∧ ¬ (s.took .a rest).laneFits l r = true) := fun h => h.2 (hfits h.1)
  have howner : setLaneOwner c (s.took .a rest) = .accept
      ((s.took .a rest).setLane l fun n => { n with record := r, state := laneStateAfter n.state r.enable n.linkUp }) [] := by
    simp only [setLaneOwner, hr]; exact if_neg hno
  rw [exec_accept rfl htake hp (setLane_refusal hs hp) howner]
  simp only [laneStateAfter_eq]

/-! ## SET_FRAMING, SET_LAYOUT and SET_STORE (R66, R86, R108) -/

theorem setFraming_refusal (hs : s.rnc.runState = .config) (hp : c.passes 0x13 8) : s.firstRefusal .a c = none :=
  State.admits_setup (row := ⟨codeSetFraming, 8, .config, false⟩) (by decide) rfl (by decide) hs hp

theorem setLayout_refusal (hs : s.rnc.runState = .config) (hp : c.passes 0x14 10) : s.firstRefusal .a c = none :=
  State.admits_setup (row := ⟨codeSetLayout, 10, .config, false⟩) (by decide) rfl (by decide) hs hp

theorem setStore_refusal (hs : s.rnc.runState = .config) (hheld : s.slotsIn .held = 0) (hp : c.passes 0x15 2) :
    s.firstRefusal .a c = none :=
  State.admits_config (row := ⟨codeSetStore, 2, .config, false⟩) (by decide) rfl hp hs (.inr hheld)

/-- Settles O18: each record, once in range and in agreement, is replaced whole. -/
theorem framingLayoutAndStoreAreReplaced : Obligations.FramingLayoutAndStoreAreReplaced := by
  intro s c rest htake hs
  refine ⟨fun r hp hr hlt => ?_, fun y hp hy hfits => ?_, fun r hp hheld hr => ?_⟩
  · have hno : ¬ r.nominal ≤ r.tolerance := Nat.not_le.mpr hlt
    exact exec_accept rfl htake hp (setFraming_refusal hs hp) (by simp only [setFramingOwner, hr, if_neg hno]; rfl)
  · have hyes : (s.took .a rest).layoutFits y = true := hfits
    exact exec_accept rfl htake hp (setLayout_refusal hs hp) (by simp only [setLayoutOwner, hy, if_pos hyes])
  · exact exec_accept rfl htake hp (setStore_refusal hs hheld hp) (by simp only [setStoreOwner, hr]; rfl)

/-! ## SET_ROUTE and SET_LEAD (R123, R136) -/

theorem setRoute_refusal (hs : s.rnc.runState = .config) (hp : c.passes 0x16 8) : s.firstRefusal .a c = none :=
  State.admits_setup (row := ⟨codeSetRoute, 8, .config, false⟩) (by decide) rfl (by decide) hs hp

/-- The port record that a route's port has in force is not touched by the taking of a packet. -/
theorem State.took_record (s : State) (p q : Port) (rest : List InPacket) :
    ((s.took p rest).ports.get q).record = (s.ports.get q).record := by
  simp only [State.took, State.setPort_get]
  split
  · next h => rw [h]
  · rfl

/-- A lead column in range of a route in range is read as it stands (R136). -/
theorem readLead_some {bs : List Byte} {n : Fin 8} (hn : byteAt bs 0 = n.val) (hl : byteAt bs 1 ≤ 127) :
    readLead bs = some (n, byteAt bs 1) := by
  simp [readLead, hn, asFin_val, hl]

theorem readLead_none {bs : List Byte} (h : 8 ≤ byteAt bs 0 ∨ 128 ≤ byteAt bs 1) : readLead bs = none := by
  unfold readLead
  rcases h with h | h
  · rw [asFin_none h]; rfl
  · cases asFin 8 (byteAt bs 0) with
    | none => rfl
    | some r => simp [Nat.not_le.mpr (show 127 < byteAt bs 1 by omega)]

/-- Settles O19: SET_ROUTE under its check against the port record, SET_LEAD by the port of arrival. -/
theorem routesAndLeadsAreReplaced : Obligations.RoutesAndLeadsAreReplaced := by
  intro s c rest n
  refine ⟨fun r htake hp hs hr hfits => ?_, fun p htake hp => ?_⟩
  · have hno : ¬ (r.enable = true ∧ ((s.took .a rest).ports.get r.port).record.maxSegment < (s.took .a rest).layout.tileWidth + 16) := by
      rintro ⟨he, hlt⟩
      have hle := hfits he
      rw [State.took_record] at hlt
      exact Nat.not_lt.mpr hle hlt
    exact exec_accept rfl htake hp (setRoute_refusal hs hp) (by simp only [setRouteOwner, hr]; exact if_neg hno)
  · have hr : s.firstRefusal p c = none := State.admits_any (row := ⟨codeSetLead, 2, .any, true⟩) (by decide) rfl (fun _ => rfl) hp
    refine ⟨fun hn hl => ⟨fun hmay => ?_, fun hmay => ?_⟩, fun hbad => ?_⟩
    · refine exec_accept rfl htake hp hr ?_
      simp only [setLeadOwner, readLead_some hn hl]
      exact if_pos hmay
    · refine exec_accept rfl htake hp hr ?_
      have hno : ¬ (p = .a ∨ ((s.took p rest).dle.routes.get n).port = .b) := by
        show ¬ (p = .a ∨ (s.dle.routes.get n).port = .b)
        simp [hmay]
      simp only [setLeadOwner, readLead_some hn hl]
      exact if_neg hno
    · exact exec_refuse rfl htake hp hr (by simp only [setLeadOwner, readLead_none hbad])

end Sys2Proof.Machine

/-! # Fields out of range, and fields that disagree (R1, R24, R25, R45, R46, R65, R86, R107, R108, R122, R161, R188) -/

namespace Sys2Proof.Machine

/-! ## A reading is none exactly where a field is out of range -/

/-- Reading one field and then the others fails where the field or the others fail, when the others fail alike for all its values. -/
theorem bind_none_iff {α β : Type} {o : Option α} {f : α → Option β} {q : Prop} (h : ∀ a, f a = none ↔ q) :
    (o >>= f) = none ↔ o = none ∨ q := by
  cases o with
  | none => simp
  | some a => simpa using h a

theorem guarded_none_iff {α : Type} {p : Prop} [Decidable p] {a : α} : (if p then some a else none) = none ↔ ¬ p := by
  simp

theorem asFin_none_iff {n v : Nat} : asFin n v = none ↔ n ≤ v := by
  unfold asFin; split <;> simp <;> omega

theorem asBool_none_iff (v : Nat) : asBool v = none ↔ 2 ≤ v := by
  match v with
  | 0 | 1 => simp [asBool]
  | v + 2 => simp [asBool]

theorem asPort_none_iff (v : Nat) : asPort v = none ↔ 2 ≤ v := by
  match v with
  | 0 | 1 => simp [asPort]
  | v + 2 => simp [asPort]

theorem readScale_none_iff (bs : List Byte) : readScale bs = none ↔ ¬ scaleInRange bs := by
  unfold readScale scaleInRange
  rw [guarded_none_iff]
  dsimp only
  omega

/-- The fields of a phase entry in range (R24). -/
def entryInRange (bs : List Byte) (i : Nat) : Prop :=
  byteAt bs i % 128 ≤ 3 ∧ byteAt bs (i + 1) ≤ 63 ∧ 1 ≤ u16 bs (i + 2) ∧ u16 bs (i + 2) ≤ 2000

theorem readEntry_none_iff (bs : List Byte) (i : Nat) : readEntry bs i = none ↔ ¬ entryInRange bs i := by
  unfold readEntry entryInRange
  rw [guarded_none_iff]
  dsimp only
  omega

theorem readLoop_none_iff (first last : Nat) : readLoop first last = none ↔ ¬ (first ≤ last ∧ last ≤ 7) := by
  unfold readLoop
  by_cases hf : first < 8
  · by_cases hl : last < 8
    · have hle : (⟨first, hf⟩ : Fin 8) ≤ ⟨last, hl⟩ ↔ first ≤ last := Iff.rfl
      simp [asFin, hf, hl]; omega
    · rw [asFin_none (v := last) (Nat.not_lt.mp hl)]; simp; omega
  · rw [asFin_none (v := first) (Nat.not_lt.mp hf)]; simp; omega

theorem readPhases_none_iff (bs : List Byte) : readPhases bs = none ↔ ¬ phasesInRange bs := by
  have hchain : readPhases bs = none ↔
      readEntry bs 0 = none ∨ readEntry bs 4 = none ∨ readEntry bs 8 = none ∨ readEntry bs 12 = none ∨ readEntry bs 16 = none
        ∨ readEntry bs 20 = none ∨ readEntry bs 24 = none ∨ readEntry bs 28 = none
        ∨ readLoop (byteAt bs 32) (byteAt bs 33) = none ∨ ¬ (20 ≤ u16 bs 34 ∧ u16 bs 34 ≤ 10000) := by
    unfold readPhases
    iterate 9 refine bind_none_iff fun _ => ?_
    exact guarded_none_iff
  have hentries : (∀ i < 8, entryInRange bs (4 * i)) ↔
      entryInRange bs 0 ∧ entryInRange bs 4 ∧ entryInRange bs 8 ∧ entryInRange bs 12 ∧ entryInRange bs 16 ∧ entryInRange bs 20
        ∧ entryInRange bs 24 ∧ entryInRange bs 28 := by
    refine ⟨fun h => ⟨h 0 (by decide), h 1 (by decide), h 2 (by decide), h 3 (by decide), h 4 (by decide), h 5 (by decide),
      h 6 (by decide), h 7 (by decide)⟩, fun ⟨h0, h1, h2, h3, h4, h5, h6, h7⟩ i hi => ?_⟩
    interval_cases i <;> assumption
  have hrange : phasesInRange bs ↔ (∀ i < 8, entryInRange bs (4 * i)) ∧ (byteAt bs 32 ≤ byteAt bs 33 ∧ byteAt bs 33 ≤ 7)
      ∧ 20 ≤ u16 bs 34 ∧ u16 bs 34 ≤ 10000 := by
    unfold phasesInRange entryInRange; tauto
  rw [hchain, hrange, hentries]
  simp only [readEntry_none_iff, readLoop_none_iff, not_and_or, or_assoc]

theorem readLane_none_iff (bs : List Byte) : readLane bs = none ↔ ¬ laneInRange bs := by
  unfold readLane laneInRange
  rw [bind_none_iff fun _ => guarded_none_iff, asFin_none_iff]
  dsimp only
  omega

theorem readFraming_none_iff (bs : List Byte) : readFraming bs = none ↔ ¬ framingInRange bs := by
  unfold readFraming framingInRange
  generalize byteAt bs 0 = mode
  match mode with
  | 0 | 1 => simp only [Option.bind_eq_bind, Option.bind_some, guarded_none_iff]; omega
  | mode + 2 => simp

theorem readLayout_none_iff (bs : List Byte) : readLayout bs = none ↔ ¬ layoutInRange bs := by
  unfold readLayout layoutInRange
  rw [guarded_none_iff]
  dsimp only
  omega

theorem readStore_none_iff (bs : List Byte) : readStore bs = none ↔ ¬ storeInRange bs := by
  unfold readStore storeInRange
  generalize byteAt bs 1 = policy
  match policy with
  | 0 | 1 => simp only [Option.bind_eq_bind, Option.bind_some, guarded_none_iff]; omega
  | policy + 2 => simp

theorem readRoute_none_iff (bs : List Byte) : readRoute bs = none ↔ ¬ routeInRange bs := by
  unfold readRoute routeInRange
  rw [bind_none_iff fun _ => guarded_none_iff, asFin_none_iff]
  dsimp only
  omega

theorem readPort_none_iff (bs : List Byte) : readPort bs = none ↔ ¬ portInRange bs := by
  have hchain : readPort bs = none ↔ asPort (byteAt bs 0) = none ∨ asBool (byteAt bs 1) = none
      ∨ ¬ (1024 ≤ u16 bs 2 ∧ 10 ≤ u32 bs 4 ∧ u32 bs 4 ≤ 1000000 ∧ u16 bs 8 ≤ 4095) := by
    unfold readPort
    exact bind_none_iff fun _ => bind_none_iff fun _ => guarded_none_iff
  rw [hchain, asPort_none_iff, asBool_none_iff]
  unfold portInRange
  omega

/-! ## The refusals -/

theorem setPort_refusal {s : State} {c : InPacket} (hp : c.passes 0x17 10) : s.firstRefusal .a c = none :=
  State.admits_any (row := ⟨codeSetPort, 10, .any, false⟩) (by decide) rfl (fun h => by cases h) hp

/-- Some route of a port is enabled, as check 5 of SET_PORT looks for it (R161). -/
theorem State.routesOf_enabled_iff (s : State) (p : Port) :
    ((s.routesOf p).any fun i => (s.dle.routes.get i).enable) = true
      ↔ ∃ i, (s.dle.routes.get i).port = p ∧ (s.dle.routes.get i).enable = true := by
  simp [State.routesOf, (by decide : ∀ i : Fin 8, i ∈ indices)]

/-- Settles O13: for each command, the field ranges, and its refusals under its own checks. -/
theorem setupCommandsRefuseBadFields : Obligations.SetupCommandsRefuseBadFields := by
  intro s c rest htake
  refine ⟨fun hs => ⟨fun hp => ⟨readScale_none_iff _, fun h => ?_, fun r h hlt => ?_⟩, fun hp => ⟨readPhases_none_iff _, fun h => ?_,
    fun table loop spacing h hno => ?_⟩, fun hp => ⟨readLane_none_iff _, fun h => ?_, fun l r h he hno => ?_⟩, fun hp =>
    ⟨readFraming_none_iff _, fun h => ?_, fun r h hle => ?_⟩, fun hp => ⟨readLayout_none_iff _, fun h => ?_, fun y h hno => ?_⟩,
    fun hp hheld => ⟨readStore_none_iff _, fun h => ?_⟩, fun hp => ⟨readRoute_none_iff _, fun h => ?_, fun n r h he hlt => ?_⟩⟩,
    fun hp => ⟨readPort_none_iff _, fun h => ?_, fun p r h hlt hroute => ?_⟩⟩
  · exact exec_refuse rfl htake hp (setScale_refusal hs hp) (by simp only [setScaleOwner, h])
  · exact exec_refuse rfl htake hp (setScale_refusal hs hp) (by simp only [setScaleOwner, h, if_pos hlt])
  · exact exec_refuse rfl htake hp (setPhases_refusal hs hp) (by simp only [setPhasesOwner, h])
  · exact exec_refuse rfl htake hp (setPhases_refusal hs hp) (by simp [setPhasesOwner, h, hno])
  · exact exec_refuse rfl htake hp (setLane_refusal hs hp) (by simp only [setLaneOwner, h])
  · have hno' : (s.took .a rest).laneFits l r = false := hno
    exact exec_refuse rfl htake hp (setLane_refusal hs hp) (by simp [setLaneOwner, h, he, hno'])
  · exact exec_refuse rfl htake hp (setFraming_refusal hs hp) (by simp only [setFramingOwner, h])
  · exact exec_refuse rfl htake hp (setFraming_refusal hs hp) (by simp only [setFramingOwner, h, if_pos hle])
  · exact exec_refuse rfl htake hp (setLayout_refusal hs hp) (by simp only [setLayoutOwner, h])
  · have hno' : (s.took .a rest).layoutFits y = false := hno
    exact exec_refuse rfl htake hp (setLayout_refusal hs hp) (by simp [setLayoutOwner, h, hno'])
  · exact exec_refuse rfl htake hp (setStore_refusal hs hheld hp) (by simp only [setStoreOwner, h])
  · exact exec_refuse rfl htake hp (setRoute_refusal hs hp) (by simp only [setRouteOwner, h])
  · have hlt' : ((s.took .a rest).ports.get r.port).record.maxSegment < (s.took .a rest).layout.tileWidth + 16 := by
      rw [State.took_record]; exact hlt
    exact exec_refuse rfl htake hp (setRoute_refusal hs hp) (by simp only [setRouteOwner, h]; exact if_pos ⟨he, hlt'⟩)
  · exact exec_refuse rfl htake hp (setPort_refusal hp) (by simp only [setPortOwner, h])
  · have hany := ((s.took .a rest).routesOf_enabled_iff p).mpr hroute
    exact exec_refuse rfl htake hp (setPort_refusal hp) (by simp only [setPortOwner, h]; exact if_pos ⟨hlt, hany⟩)

end Sys2Proof.Machine

/-! # The groups of a loop (R25, R26) -/

namespace Sys2Proof.Machine

/-! ## Plane sets -/

theorem planeMask_getLsbD (planes : List (Fin 4)) (k : Fin 4) : (planeMask planes).getLsbD k.val = decide (k ∈ planes) := by
  have hfold (m : BitVec 4) :
      (planes.foldl (fun m k => m ||| BitVec.twoPow 4 k.val) m).getLsbD k.val = (m.getLsbD k.val || decide (k ∈ planes)) := by
    induction planes generalizing m with
    | nil => simp
    | cons j planes ih =>
      rw [List.foldl_cons, ih, BitVec.getLsbD_or, BitVec.getLsbD_twoPow]
      have hbit : (decide (k.val < 4) && decide (j.val = k.val)) = decide (k = j) := by
        simp [k.isLt, Fin.ext_iff, eq_comm]
      have hmem : decide (k ∈ j :: planes) = (decide (k = j) || decide (k ∈ planes)) := by
        rw [Bool.eq_iff_iff]; simp
      rw [hmem, ← Bool.or_assoc]
      congr 2
      simp [Fin.ext_iff, eq_comm]
  rw [planeMask, hfold]
  simp

/-- Lists of planes without repetition that make one mask are as long as each other. -/
theorem length_eq_of_planeMask_eq {xs ys : List (Fin 4)} (hx : xs.Nodup) (hy : ys.Nodup) (h : planeMask xs = planeMask ys) :
    xs.length = ys.length := by
  have hmem (k : Fin 4) : k ∈ xs ↔ k ∈ ys := by
    have hk := congrArg (fun m : BitVec 4 => m.getLsbD k.val) h
    simpa only [planeMask_getLsbD, decide_eq_decide] using hk
  exact ((List.perm_ext_iff_of_nodup hx hy).mpr hmem).length_eq

/-! ## Groups -/

theorem cutGroups_ne_nil {es : List PhaseEntry} (h : es ≠ []) : cutGroups es ≠ [] := by
  cases es with
  | nil => exact absurd rfl h
  | cons e es =>
    unfold cutGroups
    split
    · exact List.cons_ne_nil _ _
    · split <;> exact List.cons_ne_nil _ _

theorem ne_nil_of_mem_cutGroups (es : List PhaseEntry) : ∀ g ∈ cutGroups es, g ≠ [] := by
  induction es with
  | nil => intro g hg; cases hg
  | cons e es ih =>
    intro g hg
    unfold cutGroups at hg
    split at hg
    · rcases List.mem_cons.mp hg with rfl | hg
      · exact List.cons_ne_nil _ _
      · exact ih g hg
    · split at hg
      · rw [List.mem_singleton.mp hg]; exact List.cons_ne_nil _ _
      · next hcut =>
        rcases List.mem_cons.mp hg with rfl | hg
        · exact List.cons_ne_nil _ _
        · exact ih g (hcut ▸ List.mem_cons_of_mem _ hg)

/-- The entries of a table from an index on to the last of a loop. -/
def entriesUpTo (table : Eight PhaseEntry) (first : Nat) (last : Fin 8) : List PhaseEntry :=
  (indices.filter fun i => first ≤ i.val ∧ i ≤ last).map table.get

theorem entriesUpTo_cons (table : Eight PhaseEntry) {i last : Fin 8} (h : i ≤ last) :
    entriesUpTo table i.val last = table.get i :: entriesUpTo table (i.val + 1) last := by
  have hfilter : ∀ i last : Fin 8, i ≤ last → (indices.filter fun j => i.val ≤ j.val ∧ j ≤ last)
      = i :: indices.filter fun j => i.val + 1 ≤ j.val ∧ j ≤ last := by decide
  rw [entriesUpTo, hfilter i last h]; rfl

/-- The group that a table gives from an index on is the first that the loop's entries from there on are cut into, when the loop ends a
group (R25, R31). -/
theorem cutGroups_head (table : Eight PhaseEntry) (last : Fin 8) (hend : (table.get last).endOfGroup = true) (n : Nat) (i : Fin 8)
    (hi : i ≤ last) (hn : last.val < i.val + n) :
    (cutGroups (entriesUpTo table i.val last)).headD [] = (groupFrom table n i.val).map table.get := by
  induction n generalizing i with
  | zero => exact absurd (Fin.le_def.mp hi) (by omega)
  | succ n ih =>
    rw [entriesUpTo_cons table hi]
    unfold groupFrom cutGroups
    simp only [i.isLt, dif_pos, Fin.eta]
    by_cases hg : (table.get i).endOfGroup = true
    · simp [hg]
    · have hne : i ≠ last := fun e => hg (e ▸ hend)
      have hlt : i.val < last.val := by
        have := Fin.le_def.mp hi
        have : i.val ≠ last.val := fun e => hne (Fin.ext e)
        omega
      have hnext : i.val + 1 < 8 := by have := last.isLt; omega
      have hi' : (⟨i.val + 1, hnext⟩ : Fin 8) ≤ last := Fin.le_def.mpr (by show i.val + 1 ≤ last.val; omega)
      have htail := ih ⟨i.val + 1, hnext⟩ hi' (by show last.val < i.val + 1 + n; omega)
      dsimp only at htail
      simp only [hg, if_false, Bool.false_eq_true, List.map_cons, ← htail]
      cases hcut : cutGroups (entriesUpTo table (i.val + 1) last) with
      | nil =>
        refine absurd hcut (cutGroups_ne_nil ?_)
        rw [entriesUpTo_cons table hi']
        exact List.cons_ne_nil _ _
      | cons g gs => rfl

/-- The planes of a loop's plane set are those of the first of its groups (R25). -/
theorem planesOf_eq {table : Eight PhaseEntry} {loop : LoopBounds} (hle : loop.first ≤ loop.last)
    (hend : (table.get loop.last).endOfGroup = true) :
    planesOf table loop = ((cutGroups (loopEntries table loop)).headD []).map PhaseEntry.plane := by
  have hentries : loopEntries table loop = entriesUpTo table loop.first.val loop.last := rfl
  rw [hentries, cutGroups_head table loop.last hend 8 loop.first hle (by have := loop.last.isLt; omega), List.map_map]
  rfl

/-- Settles O15: the effect of R26, and of the check of R25 that its groups have the first one's planes, each once. -/
theorem setPhasesTakesEffect : Obligations.SetPhasesTakesEffect := by
  refine ⟨fun s c rest table loop spacing htake hp hs hr hok => ?_, fun table loop spacing hle hok => ?_⟩
  · exact exec_accept rfl htake hp (setPhases_refusal hs hp) (by simp only [setPhasesOwner, hr, hok, if_true]; rfl)
  · simp only [loopOk, Bool.and_eq_true, List.all_eq_true, List.mem_map, decide_eq_true_eq, forall_exists_index, and_imp,
      forall_apply_eq_imp_iff₂] at hok
    obtain ⟨⟨⟨hend, hnodup⟩, hmask⟩, -⟩ := hok
    have hentries : loopEntries table loop = table.get loop.first :: entriesUpTo table (loop.first.val + 1) loop.last :=
      entriesUpTo_cons table hle
    obtain ⟨head, groups, hcut⟩ : ∃ head groups, cutGroups (loopEntries table loop) = head :: groups :=
      List.exists_cons_of_ne_nil (cutGroups_ne_nil (by rw [hentries]; exact List.cons_ne_nil _ _))
    have hhead : head ∈ cutGroups (loopEntries table loop) := hcut ▸ List.mem_cons_self
    have hplanes : planesOf table loop = head.map PhaseEntry.plane := by rw [planesOf_eq hle hend, hcut]; rfl
    have hsame (g : List PhaseEntry) (hg : g ∈ cutGroups (loopEntries table loop)) :
        planeMask (g.map PhaseEntry.plane) = planeMask (head.map PhaseEntry.plane) := by
      rw [hmask g hg, hcut]; rfl
    refine ⟨head.length, List.length_pos_iff.mpr (ne_nil_of_mem_cutGroups _ head hhead), ?_, fun g hg =>
      ⟨?_, hnodup g hg, by rw [hplanes]; exact hsame g hg⟩⟩
    · simpa using (hnodup head hhead).length_le_card
    · simpa using length_eq_of_planeMask_eq (hnodup g hg) (hnodup head hhead) (hsame g hg)

end Sys2Proof.Machine

/-! # Notice masks and notices (R181 to R183) -/

namespace Sys2Proof.Machine

/-! ## Raising a source -/

/-- A state with the pending flag of a source set (R181). -/
def State.flagged (s : State) (x : Source) : State := { s with ntu := { s.ntu with pending := s.ntu.pending ||| x.bit } }

theorem State.raise_of_pending {s : State} {x : Source} (h : maskHas s.ntu.pending x = true) (frame : Option Nat)
    (lane : Option (Fin 8)) (detail : Int) : s.raise x frame lane detail = s := by
  rw [State.raise, if_pos h]

/-- A source raised with its flag clear: the flag is set, and an enabled source offers its NOTICE (R181). -/
theorem State.raise_of_clear {s : State} {x : Source} (h : maskHas s.ntu.pending x = false) (frame : Option Nat)
    (lane : Option (Fin 8)) (detail : Int) :
    s.raise x frame lane detail =
      if maskHas s.ntu.enable x then
        (s.flagged x).offerNotice (noticePacket x s.ptk.high frame lane detail)
      else s.flagged x := by
  rw [State.raise, if_neg (by rw [h]; decide)]; rfl

theorem State.offerNotice_taken {s : State} (k : Packet) (hl : s.ports.a.link ≠ .down) (hn : s.ports.a.notices.length < 16) :
    s.offerNotice k = { s with ports := { s.ports with a := { s.ports.a with notices := s.ports.a.notices ++ [k] } } } := by
  have hno : ¬ (s.ports.a.link = .down ∨ Config.noticeLimit ≤ s.ports.a.notices.length) := by
    rintro (h | h)
    · exact hl h
    · exact absurd h (Nat.not_le.mpr hn)
  rw [State.offerNotice, if_neg hno]
  rfl

theorem State.offerNotice_refused {s : State} (k : Packet) (h : s.ports.a.link = .down ∨ 16 ≤ s.ports.a.notices.length) :
    s.offerNotice k = s := by
  rw [State.offerNotice]; exact if_pos h

/-- The two presence bits of a NOTICE (12.4). -/
theorem bits_two (a b : Bool) : bits [a, b] = a.toNat + 2 * b.toNat := by cases a <;> cases b <;> rfl

/-- Settles O21: the two masks as bit vectors, and the cases of R181 and R182 for a raised source. -/
theorem noticeMasksAreSetAndCleared : Obligations.NoticeMasksAreSetAndCleared := by
  refine ⟨fun s c rest p => ⟨fun htake hp => ?_, fun htake hp => ?_⟩, fun s x frame lane detail => ?_⟩
  · have hr : s.firstRefusal .a c = none :=
      State.admits_any (row := ⟨codeSetNotices, 2, .any, false⟩) (by decide) rfl (fun h => by cases h) hp
    exact exec_accept rfl htake hp hr rfl
  · have hr : s.firstRefusal p c = none :=
      State.admits_any (row := ⟨codeClearNotices, 2, .any, true⟩) (by decide) rfl (fun _ => rfl) hp
    refine ⟨s.ntu.pending &&& ~~~ BitVec.ofNat 16 (u16 c.payload 0), exec_accept rfl htake hp hr rfl, fun i hi => ?_⟩
    rw [BitVec.getLsbD_and, BitVec.getLsbD_not, BitVec.getLsbD_ofNat]
    simp [hi]
  · have hnotice : noticePacket x s.ptk.high frame lane detail =
        { kind := 0x81, stream := 0x80, tag := 0,
          payload := le 1 x.number ++ le 1 (frame.isSome.toNat + 2 * lane.isSome.toNat) ++ le 1 ((lane.map Fin.val).getD 0) ++ le 1 0
            ++ leSigned 6 s.ptk.high ++ le 2 0 ++ le 4 (frame.getD 0) ++ leSigned 6 detail } := by
      rw [noticePacket, bits_two]; rfl
    refine ⟨fun h => State.raise_of_pending h _ _ _, fun h => ?_⟩
    rw [State.raise_of_clear h, hnotice]
    cases he : maskHas s.ntu.enable x with
    | false => exact ⟨rfl, fun y => maskHas_or _ _ _, fun h => absurd h (by decide), fun _ => rfl⟩
    | true =>
      by_cases hfull : s.ports.a.link = .down ∨ 16 ≤ s.ports.a.notices.length
      · rw [if_pos rfl, State.offerNotice_refused (s := s.flagged x) _ hfull]
        refine ⟨rfl, fun y => maskHas_or _ _ _, fun _ hl hn => ?_, fun _ => rfl⟩
        rcases hfull with hd | hn'
        · exact absurd hd hl
        · exact absurd hn (Nat.not_lt.mpr hn')
      · have hl : s.ports.a.link ≠ .down := fun hd => hfull (.inl hd)
        have hn : s.ports.a.notices.length < 16 := Nat.not_le.mp fun hn => hfull (.inr hn)
        rw [if_pos rfl, State.offerNotice_taken (s := s.flagged x) _ hl hn]
        refine ⟨rfl, fun y => maskHas_or _ _ _, fun _ _ _ => rfl, fun h => ?_⟩
        rcases h with h | h
        · exact absurd h (by decide)
        · exact absurd h hfull

end Sys2Proof.Machine

/-! # PAUSE and RESUME (R140, R141) -/

namespace Sys2Proof.Machine

/-- The records of a route once its FRAME_OPENs that are formed and not in transmission are taken back (R141). -/
def State.takenBack (s : State) (r : Fin 8) : List Delivery :=
  (s.dle.records.get r).map fun d =>
    if d.state = .pending ∧ (s.ports.get (s.dle.routes.get r).port).sendingOpen r d.alloc = false then
      { d with plan := none, opening := none }
    else d

theorem State.takeBackOpen_records (s : State) (q r : Fin 8) :
    (s.takeBackOpen q).dle.records.get r = if r = q then s.takenBack r else s.dle.records.get r := by
  unfold State.takeBackOpen State.takenBack
  rw [State.setRecords_get]
  split
  · next h => simp [h]
  · rfl

/-- Taking back the FRAME_OPENs of some routes touches the records of those routes alone, once each. -/
theorem State.takeBackOpens_eq (rs : List (Fin 8)) (hn : rs.Nodup) (s : State) :
    ∃ records : Eight (List Delivery), rs.foldl State.takeBackOpen s = { s with dle := { s.dle with records := records } }
      ∧ ∀ r, records.get r = if r ∈ rs then s.takenBack r else s.dle.records.get r := by
  induction rs generalizing s with
  | nil => exact ⟨s.dle.records, rfl, fun r => by simp⟩
  | cons q rs ih =>
    obtain ⟨hq, hn⟩ := List.nodup_cons.mp hn
    obtain ⟨records, heq, hget⟩ := ih hn (s.takeBackOpen q)
    refine ⟨records, by rw [List.foldl_cons, heq]; rfl, fun r => ?_⟩
    have hother (hr : r ≠ q) : (s.takeBackOpen q).takenBack r = s.takenBack r := by
      have hrec := s.takeBackOpen_records q r
      rw [if_neg hr] at hrec
      unfold State.takenBack
      rw [hrec]
      rfl
    rw [hget r]
    by_cases hr : r = q
    · subst hr
      rw [if_neg hq, State.takeBackOpen_records]
      simp
    · rw [hother hr, State.takeBackOpen_records]
      simp [hr]

theorem State.namedRoutes_nodup (s : State) (p : Port) (mask : Nat) : (s.namedRoutes p mask).Nodup :=
  List.Nodup.filter _ (by decide)

theorem State.mem_namedRoutes (s : State) (p : Port) (mask : Nat) (r : Fin 8) :
    decide (r ∈ s.namedRoutes p mask) = (mask.testBit r.val && decide (p = .a ∨ (s.dle.routes.get r).port = .b)) := by
  rw [Bool.eq_iff_iff]
  simp [State.namedRoutes, (by decide : ∀ i : Fin 8, i ∈ indices)]

/-- Settles O26: the masks bit by bit, and the records route by route. -/
theorem pauseAndResumeWriteThePausedMask : Obligations.PauseAndResumeWriteThePausedMask := by
  intro s p c rest htake named
  have hnamed (r : Fin 8) : decide (r ∈ (s.took p rest).namedRoutes p (byteAt c.payload 0)) = named r :=
    State.mem_namedRoutes _ p _ r
  refine ⟨fun hp => ?_, fun hp => ?_⟩
  · have hr : s.firstRefusal p c = none := State.admits_any (row := ⟨codePause, 1, .any, true⟩) (by decide) rfl (fun _ => rfl) hp
    generalize hrs : (s.took p rest).namedRoutes p (byteAt c.payload 0) = rs at hnamed
    have hnodup : rs.Nodup := hrs ▸ State.namedRoutes_nodup _ _ _
    obtain ⟨records, heq, hget⟩ := State.takeBackOpens_eq rs hnodup
      { s.took p rest with dle := { s.dle with paused := s.dle.paused ||| routeMask rs } }
    have howner : pauseOwner p c (s.took p rest) = .accept
        { s.took p rest with dle := { s.dle with paused := s.dle.paused ||| routeMask rs, records := records } } [] := by
      simp only [pauseOwner, hrs]
      exact congrArg (fun t => Answer.accept t []) heq
    refine ⟨_, records, exec_accept rfl htake hp hr howner, fun r => ?_, fun r => ?_⟩
    · rw [BitVec.getLsbD_or, routeMask_getLsbD, hnamed]
    · have htx : (((s.took p rest).ports.get (s.dle.routes.get r).port)).tx = (s.ports.get (s.dle.routes.get r).port).tx := by
        simp only [State.took, State.setPort_get]
        split
        · next h => rw [h]
        · rfl
      rw [hget r, ← hnamed r]
      simp only [decide_eq_true_eq, State.takenBack, HostPort.sendingOpen, htx]
      rfl
  · have hr : s.firstRefusal p c = none := State.admits_any (row := ⟨codeResume, 1, .any, true⟩) (by decide) rfl (fun _ => rfl) hp
    refine ⟨_, exec_accept rfl htake hp hr rfl, fun r => ?_⟩
    rw [BitVec.getLsbD_and, BitVec.getLsbD_not, routeMask_getLsbD, hnamed]
    simp

end Sys2Proof.Machine

/-! # Index edges and the steps that end a pulse, a group, triggers or a hold (R17, R31, R32, R40, R80, R81) -/

namespace Sys2Proof.Machine

/-! ## Through the ports' choices -/

section Settled

variable {s t u : State}

theorem State.sameDelivery_of_dle (h : t.dle = s.dle) : s.sameDelivery t := by
  simp [State.sameDelivery, h]

theorem State.sameDelivery_trans (h : s.sameDelivery t) (g : t.sameDelivery u) : s.sameDelivery u := by
  obtain ⟨h1, h2, h3, h4, h5⟩ := h
  obtain ⟨g1, g2, g3, g4, g5⟩ := g
  exact ⟨g1.trans h1, g2.trans h2, fun r => (g3 r).trans (h3 r), g4.trans h4, g5.trans h5⟩

/-- The ports' choices leave the delivery state as an earlier state had it. -/
theorem State.sameDelivery_settle (h : s.sameDelivery t) (lead : Bool) : s.sameDelivery (t.settle lead) :=
  State.sameDelivery_trans h ((State.backlog_eq_iff _ _).mp (t.settle_backlog lead)).1

theorem State.settle_queues (t : State) (lead : Bool) (p : Port) : (t.ports.get p).sameQueues ((t.settle lead).ports.get p) :=
  ((State.backlog_eq_iff _ _).mp (t.settle_backlog lead)).2 p

/-- The ports' choices leave the queues of a port as an earlier state had them. -/
theorem State.sameQueues_settle (h : t.ports = s.ports) (lead : Bool) (p : Port) :
    (s.ports.get p).sameQueues ((t.settle lead).ports.get p) := by
  have hq := t.settle_queues lead p
  rwa [h] at hq

end Settled

/-! ## Index edges (R17) -/

theorem exec_indexEdge_taken {s : State} {rising : Bool} (h : s.pwrOk = true) (hr : rising ≠ s.ptk.scale.indexFalling) :
    exec (.indexEdge rising) s = .next (s.indexTaken.settle false) := by
  have harm : exec (.indexEdge rising) s = execIndexEdge rising s := rfl
  rw [harm, execIndexEdge, State.whenPowered_high _ _ h, if_neg hr]
  rfl

theorem exec_indexEdge_ignored {s : State} {rising : Bool} (h : s.pwrOk = true) (hr : rising = s.ptk.scale.indexFalling) :
    exec (.indexEdge rising) s = .next (s.settle false) := by
  have harm : exec (.indexEdge rising) s = execIndexEdge rising s := rfl
  rw [harm, execIndexEdge, State.whenPowered_high _ _ h, if_pos hr]

/-- An index edge taken changes the index-edges counter and, outside CONFIG, the pending index edges. -/
theorem State.indexTaken_eq (s : State) :
    s.indexTaken = { s with
      ptk := { s.ptk with pendingEdges :=
        if s.rnc.runState = .config then s.ptk.pendingEdges else min 65535 (s.ptk.pendingEdges + 1) },
      ntu := { s.ntu with counters := { s.ntu.counters with position :=
        { s.ntu.counters.position with indexEdges := min 4294967295 (s.ntu.counters.position.indexEdges + 1) } } } } := by
  unfold State.indexTaken
  simp only [State.countPosition_frame]
  by_cases hc : s.rnc.runState = .config
  · rw [if_pos hc, if_pos hc]; rfl
  · rw [if_neg hc, if_neg hc]; rfl

/-- Settles O34: by the polarity. -/
theorem indexEdgesAreCountedAndHeld : Obligations.IndexEdgesAreCountedAndHeld := by
  intro rising s hs
  by_cases hr : rising = s.ptk.scale.indexFalling
  · refine ⟨_, exec_indexEdge_ignored hs hr, fun _ => ?_, fun hne => absurd hr hne, ?_⟩
    · simp only [State.settle_frame, and_self]
    · simp only [State.settle_frame, true_and]
      exact ⟨State.sameDelivery_settle (State.sameDelivery_of_dle rfl) _, s.settle_queues _⟩
  · have hdle : s.indexTaken.dle = s.dle := by rw [State.indexTaken_eq]
    have hports : s.indexTaken.ports = s.ports := by rw [State.indexTaken_eq]
    have hqueues := State.sameQueues_settle hports false
    have hdelivery := State.sameDelivery_settle (State.sameDelivery_of_dle hdle) false
    refine ⟨_, exec_indexEdge_taken hs hr, fun he => absurd he hr, fun _ => ?_, ?_⟩
    · simp only [State.settle_frame, State.indexTaken_eq, and_self]
    · refine ⟨?_, ?_, ?_, ?_, ?_, ?_, ?_, hdelivery, hqueues⟩
      all_goals simp only [State.settle_frame, State.indexTaken_eq]

/-! ## Every enabled lane settled (R60) -/

theorem State.mem_enabledLanes (s : State) (l : Fin 8) : l ∈ s.enabledLanes ↔ (s.lanes.get l).record.enable = true := by
  simp [State.enabledLanes, (by decide : ∀ l : Fin 8, l ∈ indices)]

theorem State.allSettled_iff (s : State) : s.allSettled = true ↔ s.lanesSettled := by
  simp [State.allSettled, Lane.settled, State.mem_enabledLanes, State.lanesSettled]

/-! ## The four steps -/

section Steps

variable {s : State}

theorem exec_strobePulseEnd (h : s.pwrOk = true) : exec .strobePulseEnd s = .next (match s.tru.pulseEnd with
    | none => s
    | some t => (s.pulseOver t).settle false) := by
  have harm : exec .strobePulseEnd s = execStrobePulseEnd s := rfl
  rw [harm, execStrobePulseEnd, State.whenPowered_high _ _ h]
  cases s.tru.pulseEnd <;> rfl

theorem exec_groupDone_of_none (h : s.pwrOk = true) (hg : s.tru.group = none) : exec .groupDone s = .next s := by
  have harm : exec .groupDone s = execGroupDone s := rfl
  rw [harm, execGroupDone, State.whenPowered_high _ _ h, hg]

theorem exec_groupDone {g : Group} (h : s.pwrOk = true) (hg : s.tru.group = some g) :
    exec .groupDone s = .next (if g.entries.length ≤ g.issued then (s.groupOver g).settle false else s) := by
  have harm : exec .groupDone s = execGroupDone s := rfl
  rw [harm, execGroupDone, State.whenPowered_high _ _ h, hg]
  rfl

theorem exec_triggersEnded (h : s.pwrOk = true) : exec .triggersEnded s =
    .next (if s.rnc.runState = .draining ∧ s.tru.group = none then
      State.settle { s with frt := { s.frt with triggersEnded := true } } false else s) := by
  have harm : exec .triggersEnded s = execTriggersEnded s := rfl
  rw [harm, execTriggersEnded, State.whenPowered_high _ _ h]

theorem exec_rewindHoldClear (h : s.pwrOk = true) : exec .rewindHoldClear s =
    .next (if s.frt.rewindHold = true ∧ s.tru.group = none ∧ s.lanesSettled then
      State.settle { s with frt := { s.frt with rewindHold := false } } false else s) := by
  have harm : exec .rewindHoldClear s = execRewindHoldClear s := rfl
  rw [harm, execRewindHoldClear, State.whenPowered_high _ _ h]
  simp only [State.allSettled_iff]

end Steps

/-- Settles O37: each of the four steps by its condition. -/
theorem triggersFinishAndHoldsClear : Obligations.TriggersFinishAndHoldsClear := by
  intro s hs
  refine ⟨fun u hu => ?_, fun hu => ?_, fun g hg hle => ?_, fun h => ?_, fun h => ?_, fun h => ?_, fun h => ?_, fun h => ?_⟩
  · rw [exec_strobePulseEnd hs, hu]; rfl
  · rw [exec_strobePulseEnd hs, hu]
  · rw [exec_groupDone hs hg, if_pos hle]; rfl
  · rcases h with h | ⟨g, hg, hlt⟩
    · exact exec_groupDone_of_none hs h
    · rw [exec_groupDone hs hg, if_neg (Nat.not_le.mpr hlt)]
  · rw [exec_triggersEnded hs, if_pos h]
  · rw [exec_triggersEnded hs, if_neg h]
  · rw [exec_rewindHoldClear hs, if_pos h]
  · rw [exec_rewindHoldClear hs, if_neg h]

end Sys2Proof.Machine

/-! # Next states, resets and power (R87, R167, R176, R177) -/

namespace Sys2Proof.Machine

/-! ## Every command has an outcome -/

theorem State.whenPowered_total {s : State} {f : State → State} {o : Host.Outcome State Fault Refusal} (h : o = s.whenPowered f) :
    ∃ t, o = .next t := by
  rw [h]
  unfold State.whenPowered
  split <;> exact ⟨_, rfl⟩

/-- Every command answers a next state, or is a PLACEMENT_COMPLETE under power that would write past the line store's end. -/
theorem exec_total (i : Instr) (s : State) :
    (∃ t, exec i s = .next t)
      ∨ ∃ l y ys, i = .placementComplete l ∧ (s.lanes.get l).placements = y :: ys ∧ s.pwrOk = true ∧ s.placementOutside l y = true
          ∧ exec i s = .fault .lineStoreRange := by
  cases i with
  | powerUp a b => exact .inl ⟨_, rfl⟩
  | pwrOkLow => exact .inl ⟨_, rfl⟩
  | placementComplete l =>
    have harm : exec (.placementComplete l) s = execPlacementComplete l s := rfl
    rw [harm]
    unfold execPlacementComplete
    cases hq : (s.lanes.get l).placements with
    | nil => exact .inl ⟨s, rfl⟩
    | cons y ys =>
      dsimp only
      by_cases hout : (s.pwrOk && s.placementOutside l y) = true
      · rw [if_pos hout]
        obtain ⟨hp, ho⟩ := Bool.and_eq_true_iff.mp hout
        exact .inr ⟨l, y, ys, rfl, hq, hp, ho, rfl⟩
      · rw [if_neg hout]
        exact .inl (State.whenPowered_total (s := s) rfl)
  | _ => left; dsimp only [exec]; exact State.whenPowered_total (s := s) rfl

/-! ## The queue and the clock -/

/-- A step's effect leaves the queue of waiting commands alone and takes the clock forward at most (log entries 2 and 4). -/
theorem Effect.queue_clock {s u : State} {i : Instr} (h : Effect s i u) : u.pending = s.pending ∧ s.now ≤ u.now := by
  cases h
  case accepted p code owner c rest t record ht hk hr ha ho =>
    cases ownerOf_accept ho ha
    all_goals simp [State.queueReread]
  case held ha ho =>
    obtain ⟨-, q, r, -, -, rfl⟩ := ownerOf_hold ho ha
    simp [State.heldInHand]
  case commandReset => exact ⟨rfl, le_refl _⟩
  case indexEdge => rw [State.indexTaken_eq]; exact ⟨rfl, le_refl _⟩
  all_goals
    simp [State.encoderErrorTaken, State.stallCloseOver, State.pulseOver, State.groupOver, State.replyOut, State.restOut,
      State.enterStalled]

theorem Answered.queue_clock {s t : State} {i : Instr} (h : Answered s i t) : t.pending = s.pending ∧ s.now ≤ t.now := by
  cases h with
  | same h => rw [h]; exact ⟨rfl, le_refl _⟩
  | effect hp he h => rw [h]; simpa using he.queue_clock
  | power hi h => rw [h]; exact ⟨rfl, le_refl _⟩

/-- Settles O2: an outcome for every command, and of a next state its queue and clock. -/
theorem commandsAnswerANextState : Obligations.CommandsAnswerANextState := by
  intro c s
  rcases exec_total c s with ⟨t, ht⟩ | ⟨l, y, ys, hc, hy, -, hout, hf⟩
  · exact .inl ⟨t, ht, (exec_answered ht).queue_clock⟩
  · exact .inr ⟨l, y, ys, hc, hy, hout, hf⟩

/-! ## Power (R177) -/

/-- Settles O25: the values of power-up one by one, and the low level of PWR_OK. -/
theorem powerUpTakesTheResetValues : Obligations.PowerUpTakesTheResetValues := by
  have hvalues (s : State) (powered encA encB : Bool) :
      (State.powerUpValues s.pending s.now s.slm.store powered encA encB).poweredUp s encA encB :=
    ⟨rfl, rfl, rfl, rfl, rfl, rfl, rfl, rfl, rfl, fun p => by cases p <;> rfl, rfl, rfl⟩
  refine ⟨fun encA encB s => ⟨_, rfl, hvalues s true encA encB, rfl⟩, fun s => ⟨_, rfl, hvalues s false _ _, rfl⟩,
    fun c s hlow hup hdown => ?_⟩
  rcases exec_total c s with ⟨t, ht⟩ | ⟨l, y, ys, hc, hy, hp, -⟩
  · rw [ht]
    cases exec_answered ht with
    | same h => rw [h]
    | effect hp => exact absurd hp (by rw [hlow]; decide)
    | power hi h =>
      cases c with
      | powerUp a b => exact absurd rfl (hup a b)
      | pwrOkLow => exact absurd rfl hdown
      | commandReset => rw [← ht]; exact State.whenPowered_low _ _ hlow
      | _ => cases hi
  · exact absurd hp (by rw [hlow]; decide)

/-! ## RESET and COMMAND_RESET (R167, R176) -/

theorem exec_commandReset {s : State} (h : s.pwrOk = true) :
    exec .commandReset s = .next (if s.rnc.resetDue then s.commandResetState.settle false else s) := by
  have harm : exec .commandReset s = execCommandReset s := rfl
  rw [harm, execCommandReset, State.whenPowered_high _ _ h]

theorem State.commandResetState_ports (s : State) (p : Port) :
    s.commandResetState.ports.get p = (s.ports.get p).commandReset p s.now := by
  cases p <;> rfl

/-- What a command reset leaves of a port that is UP in transmission of a REST is a wake owed (log entry 15). -/
theorem HostPort.sendingRest_of_tx {h : HostPort} {k : Packet} (ht : h.tx = some { source := .rest, packet := k }) :
    h.sendingRest = true := by
  rw [HostPort.sendingRest, ht]

/-- Settles O24: RESET through its owner, and the reset state port by port. -/
theorem resetIsAnsweredAndThenTaken : Obligations.ResetIsAnsweredAndThenTaken := by
  refine ⟨fun s c rest htake hp => ?_, fun s hpwr hdue => ?_, fun s hpwr hdue => ?_⟩
  · have hr : s.firstRefusal .a c = none :=
      State.admits_any (row := ⟨codeReset, 0, .any, false⟩) (by decide) rfl (fun h => by cases h) hp
    exact exec_accept rfl htake hp hr rfl
  · rw [exec_commandReset hpwr, hdue]; rfl
  · refine ⟨s.commandResetState, by rw [exec_commandReset hpwr, if_pos hdue], rfl, rfl, fun l => ?_, rfl, rfl, rfl, rfl, rfl, rfl, rfl,
      hpwr, fun p => ?_⟩
    · exact Eight.get_map _ _ _
    rw [State.commandResetState_ports]
    generalize s.ports.get p = h
    refine ⟨rfl, rfl, rfl, by cases p <;> rfl, by cases p <;> rfl, rfl, rfl, fun hx => ?_, fun x k hx => ⟨fun htile => ?_, fun hrest _ => ?_⟩,
      ?_⟩
    · rcases hx with hx | ⟨x, k, hx, htile⟩
      · simp [HostPort.commandReset, hx]
      · simp [HostPort.commandReset, hx, htile]
    · simp [HostPort.commandReset, hx, htile]
    · exact HostPort.sendingRest_of_tx (hrest ▸ hx)
    · cases hx : h.tx <;> simp [HostPort.commandReset, hx]

end Sys2Proof.Machine

/-! # Packets that arrive at a host port (R153, R155, R156) -/

namespace Sys2Proof.Machine

/-- Raising a source changes at most the notices of a port. -/
theorem State.raise_port (s : State) (x : Source) (frame : Option Nat) (lane : Option (Fin 8)) (detail : Int) (p : Port) :
    ∃ notices, (s.raise x frame lane detail).ports.get p = { s.ports.get p with notices := notices } := by
  obtain ⟨n, hn⟩ := s.raise_ports x frame lane detail
  rw [hn]
  cases p with
  | a => exact ⟨n, rfl⟩
  | b => exact ⟨_, rfl⟩

/-- A port but for its notices, which a raised source may change. -/
def HostPort.quiet (h : HostPort) : HostPort := { h with notices := [] }

@[simp] theorem State.raise_quiet (s : State) (x : Source) (frame : Option Nat) (lane : Option (Fin 8)) (detail : Int) (p : Port) :
    ((s.raise x frame lane detail).ports.get p).quiet = (s.ports.get p).quiet := by
  obtain ⟨n, hn⟩ := s.raise_port x frame lane detail p
  rw [hn]; rfl

/-- Ports that differ in their notices alone have the same packets, replies and records. -/
theorem HostPort.of_quiet {h k : HostPort} (e : k.quiet = h.quiet) :
    k.replies = h.replies ∧ k.record = h.record ∧ k.inbound = h.inbound :=
  ⟨by simpa [HostPort.quiet] using congrArg HostPort.replies e, by simpa [HostPort.quiet] using congrArg HostPort.record e,
    by simpa [HostPort.quiet] using congrArg HostPort.inbound e⟩

@[simp] theorem State.countPort_get (s : State) (p : Port) (f : PortCounters → PortCounters) :
    (s.countPort p f).ntu.counters.ports.get p = f (s.ntu.counters.ports.get p) := by
  simp [State.countPort]

theorem countUp_one (c : Nat) : countUp 1 c = min 4294967295 (c + 1) := rfl

/-- A place of the inbound buffer for a packet received (R155, R156). -/
def inboundPacket (h : Header) (bytes : List Byte) : InPacket :=
  { kind := h.kind, stream := h.stream, tag := h.tag, length := h.length, payload := (payloadOf h bytes).take 256,
    check := judgePayload h bytes }

section Received

variable {s : State} {p : Port} {bytes : List Byte} {h : Header}

theorem State.receiveHost_bad (hh : readHeader bytes = none) :
    s.receiveHost p bytes = (s.countPort p fun c => { c with headerErrors := countUp 1 c.headerErrors }).linkError p := by
  rw [State.receiveHost, hh]

theorem State.receiveHost_full (hh : readHeader bytes = some h) (hfull : 16 ≤ (s.ports.get p).inbound.length) :
    s.receiveHost p bytes =
      (s.countPort p fun c => { c with commandOverruns := countUp 1 c.commandOverruns }).raise .cmdOverrun (detail := portCode p) := by
  simp only [State.receiveHost, hh]
  exact if_pos hfull

theorem State.receiveHost_failed (hh : readHeader bytes = some h) (hroom : (s.ports.get p).inbound.length < 16)
    (hc : judgePayload h bytes = .fail) :
    s.receiveHost p bytes =
      ((s.setPort p fun y => { y with inbound := y.inbound ++ [inboundPacket h bytes] }).countPort p fun c =>
        { c with payloadErrors := countUp 1 c.payloadErrors }).linkError p := by
  simp only [State.receiveHost, hh]
  rw [if_neg (Nat.not_le.mpr (show _ < Config.inboundLimit from hroom)), if_pos hc]
  rfl

theorem State.receiveHost_placed (hh : readHeader bytes = some h) (hroom : (s.ports.get p).inbound.length < 16)
    (hc : judgePayload h bytes ≠ .fail) :
    s.receiveHost p bytes = s.setPort p fun y => { y with inbound := y.inbound ++ [inboundPacket h bytes] } := by
  simp only [State.receiveHost, hh]
  rw [if_neg (Nat.not_le.mpr (show _ < Config.inboundLimit from hroom)), if_neg hc]
  rfl

/-- A packet received touches, of the ports, the notices and the inbound buffer of its port alone. -/
theorem State.receiveHost_port (q : Port) :
    ∃ inbound, ((s.receiveHost p bytes).ports.get q).quiet = { (s.ports.get q).quiet with inbound := inbound }
      ∧ (q ≠ p → inbound = (s.ports.get q).inbound) := by
  have hsame : (s.ports.get q).quiet = { (s.ports.get q).quiet with inbound := (s.ports.get q).inbound } := rfl
  cases hh : readHeader bytes with
  | none => exact ⟨_, by rw [State.receiveHost_bad hh]; simp [State.linkError, ← hsame], fun _ => rfl⟩
  | some h =>
    by_cases hfull : 16 ≤ (s.ports.get p).inbound.length
    · exact ⟨_, by rw [State.receiveHost_full hh hfull]; simp [← hsame], fun _ => rfl⟩
    · have hroom := Nat.not_le.mp hfull
      have hset : ∃ inbound, (((s.setPort p fun y => { y with inbound := y.inbound ++ [inboundPacket h bytes] }).ports.get q)).quiet
          = { (s.ports.get q).quiet with inbound := inbound } ∧ (q ≠ p → inbound = (s.ports.get q).inbound) := by
        rw [State.setPort_get]
        by_cases hq : q = p
        · subst hq; rw [if_pos rfl]; exact ⟨_, rfl, fun hne => absurd rfl hne⟩
        · rw [if_neg hq]; exact ⟨_, hsame, fun _ => rfl⟩
      by_cases hc : judgePayload h bytes = .fail
      · rw [State.receiveHost_failed hh hroom hc]
        simpa [State.linkError] using hset
      · rw [State.receiveHost_placed hh hroom hc]
        exact hset

end Received

theorem exec_hostPacketReceived {s : State} {p : Port} {bytes : List Byte} (h : s.pwrOk = true) :
    exec (.hostPacketReceived p bytes) s =
      .next (if (s.ports.get p).link = .down then s else (s.receiveHost p bytes).settle false) := by
  have harm : exec (.hostPacketReceived p bytes) s = execHostPacketReceived p bytes s := rfl
  rw [harm, execHostPacketReceived, State.whenPowered_high _ _ h]

/-- Settles O49: the four fates of a packet that arrives. -/
theorem hostPacketsJoinTheInboundBuffer : Obligations.HostPacketsJoinTheInboundBuffer := by
  intro p bytes s hs
  refine ⟨fun hd => by rw [exec_hostPacketReceived hs, if_pos hd], fun hd => ?_⟩
  have hqueues (q : Port) := (s.receiveHost p bytes).settle_queues false q
  have hinbound (q : Port) : (((s.receiveHost p bytes).settle false).ports.get q).inbound = ((s.receiveHost p bytes).ports.get q).inbound :=
    (hqueues q).2.2.1
  have hother (q : Port) : ((s.receiveHost p bytes).ports.get q).replies = (s.ports.get q).replies
      ∧ ((s.receiveHost p bytes).ports.get q).record = (s.ports.get q).record
      ∧ (q ≠ p → ((s.receiveHost p bytes).ports.get q).inbound = (s.ports.get q).inbound) := by
    obtain ⟨inbound, hq, hne⟩ := State.receiveHost_port (s := s) (p := p) (bytes := bytes) q
    refine ⟨by simpa [HostPort.quiet] using congrArg HostPort.replies hq, by simpa [HostPort.quiet] using congrArg HostPort.record hq,
      fun h => ?_⟩
    have := congrArg HostPort.inbound hq
    rw [hne h] at this
    simpa [HostPort.quiet] using this
  refine ⟨_, by rw [exec_hostPacketReceived hs, if_neg hd], ?capture, State.sameDelivery_settle (State.sameDelivery_of_dle ?dle) _, ?rnc,
    ?now, ?enable, fun q => ?ports, fun hh => ?bad, fun h hh hfull => ?full, fun h hh hroom => ⟨?joins, fun hc => ?failed, fun hc => ?placed⟩⟩
  case ports =>
    obtain ⟨hrecord, -, -, hreplies, -⟩ := hqueues q
    obtain ⟨hr, hrec, hin⟩ := hother q
    exact ⟨hreplies.trans hr, hrecord.trans hrec, fun hne => (hinbound q).trans (hin hne)⟩
  case bad =>
    rw [hinbound, State.receiveHost_bad hh]
    simp only [State.settle_frame, State.linkError, State.raise_frame, State.countPort_get, countUp_one, and_true,
      State.maskHas_raise]
    exact (HostPort.of_quiet (State.raise_quiet _ _ _ _ _ p)).2.2
  case full =>
    rw [hinbound, State.receiveHost_full hh hfull]
    simp only [State.settle_frame, State.raise_frame, State.countPort_get, countUp_one, and_true, State.maskHas_raise]
    exact (HostPort.of_quiet (State.raise_quiet _ _ _ _ _ p)).2.2
  case failed =>
    rw [State.receiveHost_failed hh hroom hc]
    simp only [State.settle_frame, State.linkError, State.raise_frame, State.countPort_get, countUp_one, and_true,
      State.maskHas_raise, State.setPort_frame]
  case placed =>
    rw [State.receiveHost_placed hh hroom hc]
    simp only [State.settle_frame, State.setPort_frame]
  case joins =>
    rw [hinbound]
    by_cases hc : judgePayload h bytes = .fail
    · rw [State.receiveHost_failed hh hroom hc, State.linkError, (HostPort.of_quiet (State.raise_quiet _ _ _ _ _ p)).2.2]
      simp [inboundPacket]
    · rw [State.receiveHost_placed hh hroom hc]
      simp [inboundPacket]
  case capture => simp [State.sameCapture]
  case dle => simp
  case rnc => simp
  case now => simp
  case enable => simp

end Sys2Proof.Machine

/-! # Port records in force, and held commands (R158, R162 to R164, R168)

Where a port begins a REST the model stops its idle timer at once, and O20 leaves that to the ports' own choices that follow. So what is to
say is that those choices take no notice of the idle timer of a port in transmission, and stop it. -/

namespace Sys2Proof.Machine

/-! ## The idle timer of a port, and what takes no notice of it -/

/-- The state with a port's idle timer at a value. -/
def State.idleAt (s : State) (p : Port) (v : Option Nat) : State := s.setPort p fun h => { h with idleTimer := v }

theorem Port.eq_of_ne {p q : Port} (h : q ≠ p) : p = .a ∧ q = .b ∨ p = .b ∧ q = .a := by
  revert h
  cases p <;> cases q <;> decide

section IdleAt

variable (s : State) (p q : Port) (v : Option Nat) (r : Fin 8)

theorem State.setPort_idleAt (f : HostPort → HostPort)
    (hf : ∀ h v, f { h with idleTimer := v } = { f h with idleTimer := v }) :
    (s.idleAt p v).setPort q f = (s.setPort q f).idleAt p v := by
  by_cases hq : q = p
  · subst hq
    simp only [State.idleAt, State.setPort_setPort]
    exact congrArg (s.setPort q) (funext fun h => hf h v)
  · rcases Port.eq_of_ne hq with ⟨rfl, rfl⟩ | ⟨rfl, rfl⟩ <;> rfl

@[simp] theorem State.idleAt_tx : ((s.idleAt p v).ports.get q).tx = (s.ports.get q).tx := by cases p <;> cases q <;> rfl

@[simp] theorem State.idleAt_link : ((s.idleAt p v).ports.get q).link = (s.ports.get q).link := by cases p <;> cases q <;> rfl

@[simp] theorem State.idleAt_tile : ((s.idleAt p v).ports.get q).tile = (s.ports.get q).tile := by cases p <;> cases q <;> rfl

@[simp] theorem State.idleAt_staged : ((s.idleAt p v).ports.get q).staged = (s.ports.get q).staged := by cases p <;> cases q <;> rfl

@[simp] theorem State.idleAt_record : ((s.idleAt p v).ports.get q).record = (s.ports.get q).record := by cases p <;> cases q <;> rfl

@[simp] theorem State.idleAt_replies : ((s.idleAt p v).ports.get q).replies = (s.ports.get q).replies := by cases p <;> cases q <;> rfl

@[simp] theorem State.idleAt_notices : ((s.idleAt p v).ports.get q).notices = (s.ports.get q).notices := by cases p <;> cases q <;> rfl

@[simp] theorem State.idleAt_pointer : ((s.idleAt p v).ports.get q).pointer = (s.ports.get q).pointer := by cases p <;> cases q <;> rfl

@[simp] theorem State.idleAt_sendingRest : ((s.idleAt p v).ports.get q).sendingRest = (s.ports.get q).sendingRest := by
  simp [HostPort.sendingRest]

@[simp] theorem State.idleAt_workPresent : (s.idleAt p v).workPresent q = s.workPresent q := by cases p <;> cases q <;> rfl

@[simp] theorem State.idleAt_leadPresent (routes : List (Fin 8)) : (s.idleAt p v).leadPresent q routes = s.leadPresent q routes := by
  cases p <;> cases q <;> rfl

@[simp] theorem State.idleAt_mayChoose : (s.idleAt p v).mayChoose q = s.mayChoose q := by cases p <;> cases q <;> rfl

@[simp] theorem State.idleAt_restReady : (s.idleAt p v).restReady q = s.restReady q := by cases p <;> cases q <;> rfl

@[simp] theorem State.idleAt_rereadRows (e : Reread) : (s.idleAt p v).rereadRows q e = s.rereadRows q e := by
  cases p <;> cases q <;> rfl

@[simp] theorem State.idleAt_dle : (s.idleAt p v).dle = s.dle := rfl

@[simp] theorem State.idleAt_now : (s.idleAt p v).now = s.now := rfl

@[simp] theorem State.idleAt_slot (i : Nat) : (s.idleAt p v).slot i = s.slot i := rfl

@[simp] theorem State.idleAt_current : (s.idleAt p v).current r = s.current r := rfl

@[simp] theorem State.idleAt_offer : (s.idleAt p v).offer r = s.offer r := rfl

@[simp] theorem State.idleAt_eligible (i : Fin 9) : (s.idleAt p v).eligible q i = s.eligible q i := rfl

theorem State.idleAt_send (x : TxSource) (k : Packet) : (s.idleAt p v).send q x k = (s.send q x k).idleAt p v :=
  s.setPort_idleAt p q v _ fun _ _ => rfl

theorem State.idleAt_sendSegment (d : Delivery) (x : TileSpan) (c n : Nat) :
    (s.idleAt p v).sendSegment q r d x c n = (s.sendSegment q r d x c n).idleAt p v :=
  State.idleAt_send s p q v _ _

theorem State.idleAt_formOpen : (s.idleAt p v).formOpen r = (s.formOpen r).idleAt p v := by
  have hplan (d : Delivery) : (s.idleAt p v).openPlan r d = s.openPlan r d := rfl
  unfold State.formOpen
  simp only [State.idleAt_current, State.idleAt_dle, State.idleAt_slot, hplan]
  repeat' split
  all_goals rfl

theorem State.idleAt_formOpens : (s.idleAt p v).formOpens q = (s.formOpens q).idleAt p v := by
  have hfold (routes : List (Fin 8)) (s : State) :
      routes.foldl State.formOpen (s.idleAt p v) = (routes.foldl State.formOpen s).idleAt p v := by
    induction routes generalizing s with
    | nil => rfl
    | cons r routes ih => rw [List.foldl_cons, State.idleAt_formOpen, ih, List.foldl_cons]
  have hroutes : (s.idleAt p v).routesOf q = s.routesOf q := rfl
  unfold State.formOpens
  rw [State.idleAt_link, hroutes]
  split
  · rfl
  · exact hfold _ _

theorem State.idleAt_startWake : (s.idleAt p v).startWake q = (s.startWake q).idleAt p v := by
  unfold State.startWake
  rw [State.idleAt_link, State.idleAt_sendingRest]
  split
  · exact s.setPort_idleAt p q v _ fun _ _ => rfl
  · split
    · exact s.setPort_idleAt p q v _ fun _ _ => rfl
    · rfl

theorem State.idleAt_wake (lead : Bool) : (s.idleAt p v).wake q lead = (s.wake q lead).idleAt p v := by
  have hroutes : (s.idleAt p v).unpaused q = s.unpaused q := rfl
  unfold State.wake
  rw [State.idleAt_workPresent, State.idleAt_leadPresent, hroutes]
  split
  · exact s.idleAt_startWake p q v
  · rfl

theorem State.idleAt_continueTile : (s.idleAt p v).continueTile q r = (s.continueTile q r).idleAt p v := by
  unfold State.continueTile
  simp only [State.idleAt_current, State.idleAt_slot]
  split
  · rfl
  · split
    · split
      · rfl
      · split
        · exact s.idleAt_send p q v _ _
        · exact s.idleAt_sendSegment p q v _ _ _ _ _
    · rfl

theorem State.idleAt_beginTile (d : Delivery) (c n : Nat) :
    (s.idleAt p v).beginTile q r d c n = (s.beginTile q r d c n).idleAt p v := by
  unfold State.beginTile
  simp only [State.idleAt_slot, State.idleAt_record]
  have hrecord (f : Delivery → Delivery) : (s.idleAt p v).setRecord r d.alloc f = (s.setRecord r d.alloc f).idleAt p v := rfl
  rw [hrecord, State.setPort_idleAt _ p q v _ fun _ _ => rfl, State.idleAt_sendSegment]

theorem State.idleAt_serveRoute : (s.idleAt p v).serveRoute q r = (s.serveRoute q r).idleAt p v := by
  unfold State.serveRoute
  rw [State.idleAt_current, State.idleAt_offer]
  split
  · exact s.idleAt_send p q v _ _
  · exact s.idleAt_beginTile p q v r _ _ _
  · exact s.idleAt_send p q v _ _
  · rfl

theorem State.idleAt_serveReread : (s.idleAt p v).serveReread q = (s.serveReread q).idleAt p v := by
  unfold State.serveReread
  simp only [State.idleAt_dle, State.idleAt_rereadRows]
  split
  · rfl
  · next e es he =>
    have hrereads (f : List Reread → List Reread) : (s.idleAt p v).setRereads q f = (s.setRereads q f).idleAt p v := rfl
    rw [hrereads, State.setPort_idleAt _ p q v _ fun _ _ => rfl]
    exact State.idleAt_send _ p q v _ _

theorem State.idleAt_serveNext : (s.idleAt p v).serveNext q = (s.serveNext q).idleAt p v := by
  unfold State.serveNext
  simp only [State.idleAt_pointer, State.idleAt_eligible]
  split
  · rfl
  · rw [State.setPort_idleAt _ p q v _ fun _ _ => rfl]
    split
    · exact State.idleAt_serveRoute _ p q v _
    · exact State.idleAt_serveReread _ p q v

theorem State.idleAt_choose : (s.idleAt p v).choose q = (s.choose q).idleAt p v := by
  unfold State.choose
  simp only [State.idleAt_mayChoose, State.idleAt_replies, State.idleAt_notices, State.idleAt_tile, State.idleAt_staged]
  split
  · split
    · exact s.idleAt_send p q v _ _
    · exact s.idleAt_send p q v _ _
    · exact s.idleAt_continueTile p q v _
    · exact s.idleAt_serveReread p q v
    · split
      · rfl
      · exact s.idleAt_serveNext p q v
  · rfl

end IdleAt

/-! ## The ports' choices and the idle timer of a port in transmission -/

/-- A port in transmission has its idle timer stopped by its own choices, whatever it read (R163). -/
theorem State.settlePort_idleAt_self {s : State} {p : Port} (htx : (s.ports.get p).tx.isSome = true) (v : Option Nat) (lead : Bool) :
    (s.idleAt p v).settlePort p lead = s.settlePort p lead := by
  have hform : ((s.formOpens p).ports) = s.ports := by simp
  have hwake : ((((s.formOpens p).wake p lead).choose p).ports.get p).tx.isSome = true := by
    have hw : (((s.formOpens p).wake p lead).ports.get p).tx = (s.ports.get p).tx := by
      rw [← hform]
      unfold State.wake State.startWake
      repeat' split
      all_goals simp
    have hno : ((s.formOpens p).wake p lead).mayChoose p = false := by
      rw [State.mayChoose, hw]
      cases hx : (s.ports.get p).tx with
      | none => rw [hx] at htx; cases htx
      | some x => simp
    rw [State.choose, hno, if_neg (by decide), hw]
    exact htx
  have hupkeep (u : State) (hu : (u.ports.get p).tx.isSome = true) : (u.idleAt p v).idleUpkeep p = u.idleUpkeep p := by
    have hne : (u.ports.get p).tx ≠ none := fun h => by rw [h] at hu; cases hu
    unfold State.idleUpkeep
    rw [State.idleAt_workPresent]
    unfold State.idleAt
    rw [State.setPort_setPort]
    unfold State.setPort
    simp [hne]
  unfold State.settlePort
  rw [State.idleAt_formOpens, State.idleAt_wake, State.idleAt_choose, hupkeep _ hwake]

/-- A port's choices take no notice of the idle timer of the other port. -/
theorem State.settlePort_idleAt_ne {p q : Port} (hq : q ≠ p) (s : State) (v : Option Nat) (lead : Bool) :
    (s.idleAt p v).settlePort q lead = (s.settlePort q lead).idleAt p v := by
  have hget (u : State) : (u.idleAt p v).ports.get q = u.ports.get q := by
    rw [State.idleAt, State.setPort_get, if_neg hq]
  have hupkeep (u : State) : (u.idleAt p v).idleUpkeep q = (u.idleUpkeep q).idleAt p v := by
    unfold State.idleUpkeep
    rw [State.idleAt_workPresent]
    rcases Port.eq_of_ne hq with ⟨rfl, rfl⟩ | ⟨rfl, rfl⟩ <;> rfl
  have hjudge (u : State) : (u.idleAt p v).judgeRest q = (u.judgeRest q).idleAt p v := by
    have helapsed (t : Nat) : (u.idleAt p v).elapsed t = u.elapsed t := rfl
    unfold State.judgeRest State.beginRest
    simp only [hget, helapsed, State.idleAt_restReady]
    split
    · rfl
    · split
      · rw [State.idleAt_send]
        rcases Port.eq_of_ne hq with ⟨rfl, rfl⟩ | ⟨rfl, rfl⟩ <;> rfl
      · rfl
  unfold State.settlePort
  rw [State.idleAt_formOpens, State.idleAt_wake, State.idleAt_choose, hupkeep, hjudge]

end Sys2Proof.Machine

/-! # A port record takes effect (R158, R162 to R164, R168) -/

namespace Sys2Proof.Machine

/-! ## A port's choices leave the other port alone -/

section Others

variable (s : State) {p q : Port} (hq : q ≠ p)

include hq

theorem State.setPort_get_ne (f : HostPort → HostPort) : (s.setPort p f).ports.get q = s.ports.get q := by
  rw [State.setPort_get, if_neg hq]

theorem State.send_get_ne (x : TxSource) (k : Packet) : (s.send p x k).ports.get q = s.ports.get q := s.setPort_get_ne hq _

theorem State.startWake_get_ne : (s.startWake p).ports.get q = s.ports.get q := by
  unfold State.startWake
  split
  · exact s.setPort_get_ne hq _
  · split
    · exact s.setPort_get_ne hq _
    · rfl

theorem State.wake_get_ne (lead : Bool) : (s.wake p lead).ports.get q = s.ports.get q := by
  unfold State.wake
  split
  · exact s.startWake_get_ne hq
  · rfl

theorem State.continueTile_get_ne (r : Fin 8) : (s.continueTile p r).ports.get q = s.ports.get q := by
  unfold State.continueTile State.sendSegment
  repeat' split
  all_goals simp only [State.send_get_ne _ hq]

theorem State.beginTile_get_ne (r : Fin 8) (d : Delivery) (c n : Nat) : (s.beginTile p r d c n).ports.get q = s.ports.get q := by
  unfold State.beginTile State.sendSegment
  dsimp only
  rw [State.send_get_ne _ hq, State.setPort_get_ne _ hq]
  simp

theorem State.serveRoute_get_ne (r : Fin 8) : (s.serveRoute p r).ports.get q = s.ports.get q := by
  unfold State.serveRoute
  split
  · exact s.send_get_ne hq _ _
  · exact s.beginTile_get_ne hq _ _ _ _
  · exact s.send_get_ne hq _ _
  · rfl

theorem State.serveReread_get_ne : (s.serveReread p).ports.get q = s.ports.get q := by
  unfold State.serveReread
  split
  · rfl
  · dsimp only
    rw [State.send_get_ne _ hq, State.setPort_get_ne _ hq]
    simp

theorem State.serveNext_get_ne : (s.serveNext p).ports.get q = s.ports.get q := by
  unfold State.serveNext
  split
  · rfl
  · split
    · rw [State.serveRoute_get_ne _ hq, State.setPort_get_ne _ hq]
    · rw [State.serveReread_get_ne _ hq, State.setPort_get_ne _ hq]

theorem State.choose_get_ne : (s.choose p).ports.get q = s.ports.get q := by
  unfold State.choose
  dsimp only
  split
  · split
    · exact s.send_get_ne hq _ _
    · exact s.send_get_ne hq _ _
    · exact s.continueTile_get_ne hq _
    · exact s.serveReread_get_ne hq
    · split
      · rfl
      · exact s.serveNext_get_ne hq
  · rfl

theorem State.beginRest_get_ne : (s.beginRest p).ports.get q = s.ports.get q := by
  rw [State.beginRest, State.setPort_get_ne _ hq, State.send_get_ne _ hq]

theorem State.judgeRest_get_ne : (s.judgeRest p).ports.get q = s.ports.get q := by
  rcases s.judgeRest_cases p with h | ⟨-, -, h⟩
  · rw [h]
  · rw [h, State.beginRest_get_ne _ hq]

theorem State.settlePort_get_ne (lead : Bool) : (s.settlePort p lead).ports.get q = s.ports.get q := by
  unfold State.settlePort
  rw [State.judgeRest_get_ne _ hq, State.idleUpkeep, State.setPort_get_ne _ hq, State.choose_get_ne _ hq, State.wake_get_ne _ hq]
  simp

end Others

/-- A port in transmission has its idle timer stopped by the ports' choices, whatever it read. -/
theorem State.settle_idleAt {s : State} {p : Port} (htx : (s.ports.get p).tx.isSome = true) (v : Option Nat) (lead : Bool) :
    (s.idleAt p v).settle lead = s.settle lead := by
  unfold State.settle
  cases p with
  | a => rw [State.settlePort_idleAt_self htx]
  | b =>
    have hother : ((s.settlePort .a lead).ports.get .b).tx.isSome = true := by
      rw [State.settlePort_get_ne _ (by decide)]; exact htx
    rw [State.settlePort_idleAt_ne (by decide), State.settlePort_idleAt_self hother]

theorem State.answered_idleAt {s : State} {p : Port} (htx : (s.ports.get p).tx.isSome = true) (v : Option Nat) (q : Port)
    (c : InPacket) (record : List Byte) : (s.idleAt p v).answered q c record = s.answered q c record := by
  have hreply : (s.idleAt p v).reply q c .ok record = (s.reply q c .ok record).idleAt p v :=
    s.setPort_idleAt p q v _ fun _ _ => rfl
  have htx' : ((s.reply q c .ok record).ports.get p).tx.isSome = true := by
    rw [State.reply, State.setPort_get]
    split
    · next h => subst h; exact htx
    · exact htx
  rw [State.answered, hreply, State.settle_idleAt htx', State.answered]

/-! ## Rest, judged -/

theorem State.restReady_iff_mayRest (s : State) (p : Port) : s.restReady p = true ↔ s.mayRest p := by
  rw [State.restReady_iff, State.mayRest]
  have hdue : (p = .a → s.rnc.resetDue = false) ↔ ¬ (p = .a ∧ s.rnc.resetDue = true) := by simp
  rw [hdue]
  tauto

theorem State.judgeRest_begins {s : State} {p : Port} {v : Nat} (hv : (s.ports.get p).idleTimer = some v)
    (hd : (s.ports.get p).record.restDelay * 100 ≤ s.now - v) (hr : s.mayRest p) : s.judgeRest p = s.beginRest p := by
  rw [State.judgeRest, hv]
  exact if_pos ⟨hd, (s.restReady_iff_mayRest p).mpr hr⟩

theorem State.judgeRest_stands {s : State} {p : Port}
    (h : (∀ v, (s.ports.get p).idleTimer = some v → s.now - v < (s.ports.get p).record.restDelay * 100) ∨ ¬ s.mayRest p) :
    s.judgeRest p = s := by
  rcases s.judgeRest_cases p with hs | ⟨⟨v, hv, hd⟩, hr, -⟩
  · exact hs
  · rcases h with h | h
    · exact absurd hd (Nat.not_le.mpr (h v hv))
    · exact absurd ((s.restReady_iff_mayRest p).mp hr) h

/-- A port that begins a REST, but for its idle timer, which the ports' choices stop in any case. -/
def State.resting (s : State) (p : Port) : State :=
  s.setPort p fun h =>
    { h with
      tx := some { source := .rest, packet := { kind := 0x86, stream := 0x80, tag := 0, payload := [] } }, wakeOwed := false }

theorem State.beginRest_eq (s : State) (p : Port) : s.beginRest p = (s.resting p).idleAt p none := by
  simp only [State.beginRest, State.send, State.resting, State.idleAt, State.setPort_setPort]
  rfl

/-! ## Wake causes -/

theorem State.startWake_resting {s : State} {p : Port} (h : (s.ports.get p).link = .resting) :
    s.startWake p = s.setPort p fun h => { h with link := .waking, wakeTimer := some s.now } := by
  rw [State.startWake, if_pos h]

theorem State.startWake_sending {s : State} {p : Port} {k : Packet} (h : (s.ports.get p).link ≠ .resting)
    (hx : (s.ports.get p).tx = some { source := .rest, packet := k }) :
    s.startWake p = s.setPort p fun h => { h with wakeOwed := true } := by
  rw [State.startWake, if_neg h, if_pos (HostPort.sendingRest_of_tx hx)]

theorem HostPort.sendingRest_iff (h : HostPort) : h.sendingRest = true ↔ ∃ k, h.tx = some { source := .rest, packet := k } := by
  refine ⟨fun hs => ?_, fun ⟨k, hk⟩ => HostPort.sendingRest_of_tx hk⟩
  unfold HostPort.sendingRest at hs
  split at hs
  · exact ⟨_, by assumption⟩
  · cases hs

theorem State.startWake_neither {s : State} {p : Port} (h : (s.ports.get p).link ≠ .resting)
    (hx : ∀ k, (s.ports.get p).tx ≠ some { source := .rest, packet := k }) : s.startWake p = s := by
  have hno : ¬ (s.ports.get p).sendingRest = true := fun hs => by
    obtain ⟨k, hk⟩ := (HostPort.sendingRest_iff _).mp hs
    exact hx k hk
  rw [State.startWake, if_neg h, if_neg hno]

/-! ## SET_PORT (R162) -/

/-- A port with a record in force and none staged (R162). -/
def State.withRecord (s : State) (p : Port) (r : PortRecord) : State := s.setPort p fun h => { h with record := r, staged := none }

theorem State.withRecord_get (s : State) (p : Port) (r : PortRecord) :
    (s.withRecord p r).ports.get p = { s.ports.get p with record := r, staged := none } := s.setPort_get_self p _

theorem State.portRecordInForce_rest {s : State} {p : Port} {r : PortRecord} (h : r.restEnable = true) :
    s.portRecordInForce p r = (s.withRecord p r).judgeRest p := if_pos h

theorem State.portRecordInForce_wake {s : State} {p : Port} {r : PortRecord} (h : r.restEnable = false) :
    s.portRecordInForce p r = (s.withRecord p r).startWake p := if_neg (by rw [h]; decide)

/-- A taken packet leaves a port but for its inbound buffer. -/
theorem State.took_get (s : State) (p q : Port) (rest : List InPacket) :
    ∃ inbound, (s.took p rest).ports.get q = { s.ports.get q with inbound := inbound } := by
  rw [State.took, State.setPort_get]
  split
  · next h => subst h; exact ⟨_, rfl⟩
  · exact ⟨_, rfl⟩

/-- Settles O20: the two ways in which a record comes into force, and the record staged. -/
theorem setPortIsInForceOrStaged : Obligations.SetPortIsInForceOrStaged := by
  intro s c rest p r htake hp hread hfits u
  have hu : u = (s.took .a rest).withRecord p r := rfl
  obtain ⟨inbound, htook⟩ := s.took_get .a p rest
  have hport : u.ports.get p = { s.ports.get p with record := r, staged := none, inbound := inbound } := by
    rw [hu, State.withRecord_get, htook]
  have hagree : ¬ (r.maxSegment < (s.took .a rest).layout.tileWidth + 16
      ∧ ((s.took .a rest).routesOf p).any (fun i => ((s.took .a rest).dle.routes.get i).enable) = true) := by
    rintro ⟨hlt, hany⟩
    obtain ⟨i, hi, he⟩ := ((s.took .a rest).routesOf_enabled_iff p).mp hany
    rcases hfits with h | h
    · exact Nat.not_lt.mpr h hlt
    · have : (s.dle.routes.get i).enable = false := h i hi
      exact absurd he (by rw [show ((s.took .a rest).dle.routes.get i) = s.dle.routes.get i from rfl, this]; decide)
  have htile : ((s.took .a rest).ports.get p).tile = (s.ports.get p).tile := by rw [htook]
  have hforce (h : (s.ports.get p).tile = none) :
      exec (.setPort .a) s = .next (((s.took .a rest).portRecordInForce p r).answered .a c []) := by
    refine exec_accept rfl htake hp (setPort_refusal hp) ?_
    simp only [setPortOwner, hread]
    rw [if_neg hagree, if_pos (htile.trans h)]
  refine ⟨fun hnone hrest => ⟨fun hno => ?_, fun v hv hle hmay => ?_⟩, fun hnone hrest => ⟨fun hl hx => ?_, fun k hl hx => ?_, fun hl => ?_⟩,
    fun hsome => ?_⟩
  · rw [hforce hnone, State.portRecordInForce_rest hrest, ← hu, State.judgeRest_stands]
    rw [hport]
    exact hno
  · have hbegin : u.judgeRest p = u.beginRest p := State.judgeRest_begins (by rw [hport]; exact hv) (by rw [hport]; exact hle) hmay
    have htx : ((u.resting p).ports.get p).tx.isSome = true := by rw [State.resting, State.setPort_get_self]; rfl
    rw [hforce hnone, State.portRecordInForce_rest hrest, ← hu, hbegin, State.beginRest_eq, State.answered_idleAt htx]
    rfl
  · rw [hforce hnone, State.portRecordInForce_wake hrest, ← hu,
      State.startWake_neither (by rw [hport]; exact hl) (by rw [hport]; exact hx)]
  · rw [hforce hnone, State.portRecordInForce_wake hrest, ← hu,
      State.startWake_sending (by rw [hport]; exact hl) (by rw [hport]; exact hx)]
  · rw [hforce hnone, State.portRecordInForce_wake hrest, ← hu, State.startWake_resting (by rw [hport]; exact hl)]
    rfl
  · refine exec_hold rfl htake hp (setPort_refusal hp) ?_
    simp only [setPortOwner, hread]
    rw [if_neg hagree, if_neg (htile ▸ hsome)]

/-! ## STAGED_PORT_RECORD (R162, R168) -/

/-- Answering a held SET_PORT fills a reply of its port of arrival, and changes nothing else at the ports. -/
theorem State.answerHeld_get (s : State) (named arrival q : Port) :
    ∃ replies, (s.answerHeld named arrival).ports.get q = { s.ports.get q with replies := replies } := by
  unfold State.answerHeld
  split
  · exact ⟨_, rfl⟩
  · split
    · dsimp only
      rw [State.setPort_get]
      split
      · next h => subst h; exact ⟨_, rfl⟩
      · exact ⟨_, rfl⟩
    · exact ⟨_, rfl⟩

theorem fillReserved_append (k : Packet) {before : List (Option Packet)} (h : none ∉ before) (after : List (Option Packet)) :
    fillReserved k (before ++ none :: after) = before ++ some k :: after := by
  induction before with
  | nil => rfl
  | cons x before ih =>
    cases x with
    | none => exact absurd List.mem_cons_self h
    | some y => rw [List.cons_append, fillReserved, ih fun hm => h (List.mem_cons_of_mem _ hm), List.cons_append]

/-- What a record that comes into force does to its port (R162 to R164): the rest it begins, or the wake it causes. -/
theorem State.portRecordInForce_get (s : State) (p : Port) (r : PortRecord) :
    ∃ v timer,
      (s.portRecordInForce p r).ports.get p =
        { s.ports.get p with
          record := r, staged := none, idleTimer := v, wakeTimer := timer,
          tx := ((s.portRecordInForce p r).ports.get p).tx, link := ((s.portRecordInForce p r).ports.get p).link,
          wakeOwed := ((s.portRecordInForce p r).ports.get p).wakeOwed } := by
  cases h : r.restEnable with
  | true =>
    rw [State.portRecordInForce_rest h]
    rcases (s.withRecord p r).judgeRest_cases p with hs | ⟨-, -, hs⟩
    · rw [hs, State.withRecord_get]; exact ⟨_, _, rfl⟩
    · rw [hs, State.beginRest_eq, State.idleAt, State.setPort_get_self, State.resting, State.setPort_get_self, State.withRecord_get]
      exact ⟨_, _, rfl⟩
  | false =>
    rw [State.portRecordInForce_wake h]
    unfold State.startWake
    split
    · rw [State.setPort_get_self, State.withRecord_get]; exact ⟨_, _, rfl⟩
    · split
      · rw [State.setPort_get_self, State.withRecord_get]; exact ⟨_, _, rfl⟩
      · rw [State.withRecord_get]; exact ⟨_, _, rfl⟩

end Sys2Proof.Machine

/-! # A staged port record (R158, R162 to R164, R168) -/

namespace Sys2Proof.Machine

theorem exec_stagedPortRecord {s : State} {p : Port} {r : PortRecord} (h : s.pwrOk = true) (hr : (s.ports.get p).staged = some r)
    (ht : (s.ports.get p).tile = none) :
    exec (.stagedPortRecord p) s = .next ((((s.portRecordInForce p r).answerHeld p .a).answerHeld p .b).settle false) := by
  have harm : exec (.stagedPortRecord p) s = execStagedPortRecord p s := rfl
  rw [harm, execStagedPortRecord, State.whenPowered_high _ _ h, hr, ht]

theorem exec_stagedPortRecord_idle {s : State} {p : Port} (h : s.pwrOk = true)
    (hn : (s.ports.get p).staged = none ∨ (s.ports.get p).tile ≠ none) : exec (.stagedPortRecord p) s = .next s := by
  have harm : exec (.stagedPortRecord p) s = execStagedPortRecord p s := rfl
  rw [harm, execStagedPortRecord, State.whenPowered_high _ _ h]
  cases hr : (s.ports.get p).staged with
  | none => rfl
  | some r =>
    cases ht : (s.ports.get p).tile with
    | none => rcases hn with hn | hn <;> simp_all
    | some x => rfl

/-- The reply of a SET_PORT held on port A takes its reserved place, and neither port holds a command any more. -/
theorem State.answerHeld_a {s : State} {p : Port} {c : InPacket} {before after : List (Option Packet)} (hc : s.rnc.inHand.a = some c)
    (hp : byteAt c.payload 0 = portCode p) (hr : s.ports.a.replies = before ++ none :: after) (hn : none ∉ before) :
    (s.answerHeld p .a).rnc = { s.rnc with inHand := { s.rnc.inHand with a := none } }
      ∧ (s.answerHeld p .a).ports.a.replies = before ++ some (replyPacket c .ok []) :: after := by
  have hget : s.rnc.inHand.get .a = some c := hc
  have hnamed : asPort (byteAt c.payload 0) = some p := by rw [hp, asPort_portCode]
  unfold State.answerHeld
  rw [hget]
  simp only [hnamed, if_true]
  refine ⟨rfl, ?_⟩
  have hreplies := fillReserved_append (replyPacket c .ok []) hn after
  rw [← hr] at hreplies
  exact hreplies

theorem State.answerHeld_none {s : State} {p q : Port} (h : s.rnc.inHand.get q = none) : s.answerHeld p q = s := by
  rw [State.answerHeld, h]

/-- Settles O51: the record comes into force as in O20, and the command held for it is answered. -/
theorem stagedRecordsWaitForTheTile : Obligations.StagedRecordsWaitForTheTile := by
  intro s p hs
  refine ⟨fun hn => exec_stagedPortRecord_idle hs hn, fun r hr ht => ?_⟩
  intro u rests
  have hu : s.withRecord p r = u := rfl
  have huport : u.ports.get p = { s.ports.get p with record := r, staged := none } := s.withRecord_get p r
  obtain ⟨v, timer, hforce⟩ := s.portRecordInForce_get p r
  generalize hw : s.portRecordInForce p r = w at hforce
  obtain ⟨first, hfirst⟩ := w.answerHeld_get p .a p
  obtain ⟨second, hsecond⟩ := (w.answerHeld p .a).answerHeld_get p .b p
  have hport : ((w.answerHeld p .a).answerHeld p .b).ports.get p = { w.ports.get p with replies := second } := by
    rw [hsecond, hfirst]
  refine ⟨(w.answerHeld p .a).answerHeld p .b, by rw [exec_stagedPortRecord hs hr ht, hw], ?record, ?staged, ?inbound, fun h => ?rests,
    fun h => ?stands, ?notices, fun hl hrest => ?waking, fun k hl hrest hx => ?owed, fun h => ?link,
    fun c before after hc hb hp hreplies hn => ?held, ?capture, ?dle, ?ntu, ?now⟩
  case record => rw [hport, hforce]
  case staged => rw [hport, hforce]
  case inbound => rw [hport, hforce]
  case notices => rw [hport, hforce]
  case rests =>
    obtain ⟨hrest, hmay, v, hv, hle⟩ := h
    have hbegin : u.judgeRest p = u.beginRest p := State.judgeRest_begins (by rw [huport]; exact hv) (by rw [huport]; exact hle) hmay
    rw [hport, ← hw, State.portRecordInForce_rest hrest, hu, hbegin, State.beginRest_eq, State.idleAt, State.setPort_get_self,
      State.resting, State.setPort_get_self]
    exact ⟨rfl, rfl⟩
  case stands =>
    rw [hport, ← hw]
    cases hrest : r.restEnable with
    | true =>
      have hstands : u.judgeRest p = u := by
        refine State.judgeRest_stands ?_
        rw [huport]
        by_cases hmay : u.mayRest p
        · exact .inl fun v hv => Nat.not_le.mp fun hle => h ⟨hrest, hmay, v, hv, hle⟩
        · exact .inr hmay
      rw [State.portRecordInForce_rest hrest, hu, hstands, huport]
    | false =>
      rw [State.portRecordInForce_wake hrest, hu]
      unfold State.startWake
      split
      · rw [State.setPort_get_self, huport]
      · split
        · rw [State.setPort_get_self, huport]
        · rw [huport]
  case waking =>
    rw [hport, ← hw, State.portRecordInForce_wake hrest, hu, State.startWake_resting (by rw [huport]; exact hl), State.setPort_get_self]
    exact ⟨rfl, rfl⟩
  case owed =>
    rw [hport, ← hw, State.portRecordInForce_wake hrest, hu,
      State.startWake_sending (by rw [huport]; exact hl) (by rw [huport]; exact hx), State.setPort_get_self]
  case link =>
    rw [hport, ← hw]
    cases hrest : r.restEnable with
    | true =>
      rw [State.portRecordInForce_rest hrest, hu]
      rcases u.judgeRest_cases p with hsame | ⟨-, -, hbegin⟩
      · rw [hsame, huport]
      · rw [hbegin, State.beginRest_eq, State.idleAt, State.setPort_get_self, State.resting, State.setPort_get_self, huport]
    | false =>
      have hl : (u.ports.get p).link ≠ .resting := by
        rw [huport]
        rcases h with h | h
        · exact h
        · rw [hrest] at h; cases h
      rw [State.portRecordInForce_wake hrest, hu, State.startWake, if_neg hl]
      split
      · rw [State.setPort_get_self, huport]
      · rw [huport]
  case held =>
    have hrnc : w.rnc = s.rnc := by rw [← hw]; simp
    have hwreplies : w.ports.a.replies = before ++ none :: after := by
      rw [← hreplies, ← hw]
      exact s.portRecordInForce_replies p r .a
    obtain ⟨hrncA, hrepliesA⟩ := State.answerHeld_a (s := w) (p := p) (by rw [hrnc]; exact hc) hp hwreplies hn
    have hnone : (w.answerHeld p .a).rnc.inHand.get .b = none := by rw [hrncA, hrnc]; exact hb
    rw [State.answerHeld_none hnone, hrncA, hrepliesA, hrnc]
    exact ⟨by rw [← hb], rfl⟩
  case capture => rw [← hw]; simp [State.sameCapture]
  case dle => rw [← hw]; simp
  case ntu => rw [← hw]; simp
  case now => rw [← hw]; simp

end Sys2Proof.Machine

/-! # The status record (R16, R20, R61, R83, R89, R104, R179, 12.5)

The record is cut into the fields of 12.5, and each reading names the fields before its own. -/

namespace Sys2Proof.Machine

/-! ## The member of least key, which a fold keeps -/

section Least

variable {α : Type} (key : α → Nat)

/-- A fold that keeps the member of least key ends with one of the members, of least key among them. -/
theorem foldl_least (xs : List α) (x : α) :
    xs.foldl (fun m y => if key y < key m then y else m) x ∈ x :: xs
      ∧ ∀ y ∈ x :: xs, key (xs.foldl (fun m y => if key y < key m then y else m) x) ≤ key y := by
  induction xs generalizing x with
  | nil => simp
  | cons z xs ih =>
    rw [List.foldl_cons]
    obtain ⟨hmem, hle⟩ := ih (if key z < key x then z else x)
    have hfirst : (if key z < key x then z else x) ∈ x :: z :: xs := by split <;> simp
    have hkey : key (if key z < key x then z else x) ≤ key x ∧ key (if key z < key x then z else x) ≤ key z := by
      split <;> omega
    refine ⟨?_, fun y hy => ?_⟩
    · rcases List.mem_cons.mp hmem with h | h
      · rw [h]; exact hfirst
      · exact List.mem_cons_of_mem _ (List.mem_cons_of_mem _ h)
    · have hhead := hle _ List.mem_cons_self
      rcases List.mem_cons.mp hy with rfl | hy
      · omega
      · rcases List.mem_cons.mp hy with rfl | hy
        · omega
        · exact hle y (List.mem_cons_of_mem _ hy)

/-- A fold that keeps the member of greatest key ends with one of the members, of greatest key among them. -/
theorem foldl_greatest (xs : List α) (x : α) :
    xs.foldl (fun m y => if key m < key y then y else m) x ∈ x :: xs
      ∧ ∀ y ∈ x :: xs, key y ≤ key (xs.foldl (fun m y => if key m < key y then y else m) x) := by
  induction xs generalizing x with
  | nil => simp
  | cons z xs ih =>
    rw [List.foldl_cons]
    obtain ⟨hmem, hle⟩ := ih (if key x < key z then z else x)
    have hfirst : (if key x < key z then z else x) ∈ x :: z :: xs := by split <;> simp
    have hkey : key x ≤ key (if key x < key z then z else x) ∧ key z ≤ key (if key x < key z then z else x) := by
      split <;> omega
    refine ⟨?_, fun y hy => ?_⟩
    · rcases List.mem_cons.mp hmem with h | h
      · rw [h]; exact hfirst
      · exact List.mem_cons_of_mem _ (List.mem_cons_of_mem _ h)
    · have hhead := hle _ List.mem_cons_self
      rcases List.mem_cons.mp hy with rfl | hy
      · omega
      · rcases List.mem_cons.mp hy with rfl | hy
        · omega
        · exact hle y (List.mem_cons_of_mem _ hy)

end Least

/-! ## Slots by number -/

theorem State.slot_eq_getElem (s : State) {i : Nat} (h : i < s.slm.slots.length) : s.slot i = s.slm.slots[i] := by
  simp [State.slot, List.getD_eq_getElem?_getD, h]

theorem State.slot_mem (s : State) {i : Nat} (h : i < s.slm.slots.length) : s.slot i ∈ s.slm.slots := by
  rw [s.slot_eq_getElem h]; exact List.getElem_mem h

theorem State.exists_slot_of_mem {s : State} {x : Slot} (h : x ∈ s.slm.slots) : ∃ i, i < s.slm.slots.length ∧ s.slot i = x := by
  obtain ⟨i, hi, rfl⟩ := List.getElem_of_mem h
  exact ⟨i, hi, s.slot_eq_getElem hi⟩

/-! ## The oldest and the newest frame in store (R89) -/

theorem oldestOf_spec {xs : List Slot} {x : Slot} (hx : x ∈ xs) : ∃ m ∈ xs, oldestOf xs = some m ∧ ∀ y ∈ xs, m.alloc ≤ y.alloc := by
  cases xs with
  | nil => cases hx
  | cons z xs => exact ⟨_, (foldl_least Slot.alloc xs z).1, rfl, (foldl_least Slot.alloc xs z).2⟩

theorem newestOf_spec {xs : List Slot} {x : Slot} (hx : x ∈ xs) : ∃ m ∈ xs, newestOf xs = some m ∧ ∀ y ∈ xs, y.alloc ≤ m.alloc := by
  cases xs with
  | nil => cases hx
  | cons z xs => exact ⟨_, (foldl_greatest Slot.alloc xs z).1, rfl, (foldl_greatest Slot.alloc xs z).2⟩

theorem State.mem_framesInStore {s : State} {x : Slot} : x ∈ s.framesInStore ↔ x ∈ s.slm.slots ∧ x.state ≠ .free := by
  simp [State.framesInStore]

theorem State.oldest_eq {s : State} {i : Nat} (hi : i < s.slm.slots.length) (hs : (s.slot i).state ≠ .free)
    (h : ∀ j, j < s.slm.slots.length → (s.slot j).state ≠ .free → j ≠ i → (s.slot i).alloc < (s.slot j).alloc) :
    oldestOf s.framesInStore = some (s.slot i) := by
  have hmem : s.slot i ∈ s.framesInStore := State.mem_framesInStore.mpr ⟨s.slot_mem hi, hs⟩
  obtain ⟨m, hm, heq, hle⟩ := oldestOf_spec hmem
  obtain ⟨hslot, hfree⟩ := State.mem_framesInStore.mp hm
  obtain ⟨j, hj, rfl⟩ := State.exists_slot_of_mem hslot
  by_cases hji : j = i
  · rw [heq, hji]
  · exact absurd (hle _ hmem) (Nat.not_le.mpr (h j hj hfree hji))

theorem State.newest_eq {s : State} {i : Nat} (hi : i < s.slm.slots.length) (hs : (s.slot i).state ≠ .free)
    (h : ∀ j, j < s.slm.slots.length → (s.slot j).state ≠ .free → j ≠ i → (s.slot j).alloc < (s.slot i).alloc) :
    newestOf s.framesInStore = some (s.slot i) := by
  have hmem : s.slot i ∈ s.framesInStore := State.mem_framesInStore.mpr ⟨s.slot_mem hi, hs⟩
  obtain ⟨m, hm, heq, hle⟩ := newestOf_spec hmem
  obtain ⟨hslot, hfree⟩ := State.mem_framesInStore.mp hm
  obtain ⟨j, hj, rfl⟩ := State.exists_slot_of_mem hslot
  by_cases hji : j = i
  · rw [heq, hji]
  · exact absurd (hle _ hmem) (Nat.not_le.mpr (h j hj hfree hji))

/-! ## Records as fields one after another -/

/-- The bytes of some fields of a record stand after those of the fields before them. -/
theorem bytesAt_fields {fields pre mid post : List (List Byte)} (h : fields = pre ++ mid ++ post) {offset n : Nat}
    (ho : (pre.map List.length).sum = offset) (hn : (mid.map List.length).sum = n) :
    bytesAt fields.flatten offset n = mid.flatten := by
  have hlength (xs : List (List Byte)) : (xs.map List.length).sum = xs.flatten.length := List.length_flatten.symm
  rw [hlength] at ho hn
  subst ho hn
  rw [h, List.flatten_append, List.flatten_append, List.append_assoc, bytesAt, List.drop_left, List.take_left]

@[simp] theorem leSigned_length (n : Nat) (v : Int) : (leSigned n v).length = n := le_length _ _

@[simp] theorem Ptk.debtField_length (k : Ptk) : k.debtField.length = 6 := by
  unfold Ptk.debtField
  split
  · exact leSigned_length _ _
  · exact le_length _ _

@[simp] theorem laneStatus_length (n : Lane) : (laneStatus n).length = 2 := by
  rw [laneStatus, List.length_append, le_length, le_length]

/-- The fields of the status record (12.5). -/
def State.statusFields (s : State) : List (List Byte) :=
  [le 1 s.rnc.runState.code ++ le 1 s.frt.state.code ++ le 1 s.ptk.motion.code ++ le 1 s.ptk.direction.code,
    s.ptk.debtField, leSigned 6 s.ptk.tick ++ leSigned 6 s.ptk.high, le 4 s.ptk.speed ++ leSigned 4 s.ptk.encoderCount.toInt,
    laneStatus (s.lanes.get 0), laneStatus (s.lanes.get 1), laneStatus (s.lanes.get 2), laneStatus (s.lanes.get 3),
    laneStatus (s.lanes.get 4), laneStatus (s.lanes.get 5), laneStatus (s.lanes.get 6), laneStatus (s.lanes.get 7),
    le 1 (s.slotsIn .free) ++ le 1 (s.slotsIn .opened) ++ le 1 (s.slotsIn .closed) ++ le 1 (s.slotsIn .held),
    le 1 (bits [(oldestOf s.framesInStore).isSome, (newestOf s.framesInStore).isSome]) ++ le 1 0,
    le 4 (frameOrZero (oldestOf s.framesInStore)), le 4 (frameOrZero (newestOf s.framesInStore)),
    le 1 s.ports.a.link.code ++ le 1 s.ports.b.link.code ++ le 1 s.dle.paused.toNat ++ le 1 0,
    le 2 s.ntu.pending.toNat ++ le 2 s.ntu.enable.toNat]

theorem Eight.flatMap_toList {α β : Type} (f : α → List β) (t : Eight α) :
    t.toList.flatMap f = f (t.get 0) ++ (f (t.get 1) ++ (f (t.get 2) ++ (f (t.get 3) ++ (f (t.get 4) ++ (f (t.get 5) ++ (f (t.get 6)
      ++ f (t.get 7))))))) := by
  simp only [Eight.toList, List.flatMap_cons, List.flatMap_nil, List.append_nil]
  rfl

theorem State.statusRecord_eq (s : State) : s.statusRecord = s.statusFields.flatten := by
  unfold State.statusRecord State.statusFields
  rw [Eight.flatMap_toList]
  simp only [List.flatten_cons, List.flatten_nil, List.append_nil]
  simp only [List.append_assoc]

/-- The sizes of the status record's fields, in their order (12.5). -/
theorem State.statusFields_sizes (s : State) :
    s.statusFields.map List.length = [4, 6, 12, 8, 2, 2, 2, 2, 2, 2, 2, 2, 4, 2, 4, 4, 4, 4] := by
  simp only [State.statusFields, List.map_cons, List.map_nil, List.length_append, le_length, leSigned_length, Ptk.debtField_length,
    laneStatus_length]

/-- A reading of the status record: a field, at the offset that the fields before it take. -/
theorem State.bytesAt_status (s : State) {offset n : Nat} (k : Nat) {field : List Byte} (h : s.statusFields[k]? = some field)
    (ho : ([4, 6, 12, 8, 2, 2, 2, 2, 2, 2, 2, 2, 4, 2, 4, 4, 4, 4].take k).sum = offset) (hn : field.length = n) :
    bytesAt s.statusRecord offset n = field := by
  obtain ⟨hk, hfield⟩ := List.getElem?_eq_some_iff.mp h
  have hcut : s.statusFields = s.statusFields.take k ++ [field] ++ s.statusFields.drop (k + 1) := by
    rw [← hfield, List.append_assoc, List.singleton_append, List.cons_getElem_drop_succ, List.take_append_drop]
  have hbefore : ((s.statusFields.take k).map List.length).sum = offset := by rw [List.map_take, s.statusFields_sizes, ho]
  rw [s.statusRecord_eq, bytesAt_fields hcut hbefore (by simpa using hn), List.flatten_singleton]

theorem State.statusRecord_length (s : State) : s.statusRecord.length = 68 := by
  rw [s.statusRecord_eq, List.length_flatten, s.statusFields_sizes]; rfl

/-! ## The readings of the position (R10, R16, R20) -/

theorem Ptk.direction_code (k : Ptk) : k.direction.code = if k.tick < k.high then 1 else 0 := by
  have h : 0 < k.debt ↔ k.tick < k.high := by unfold Ptk.debt; omega
  unfold Ptk.direction
  simp only [h]
  split <;> rfl

theorem Ptk.debtField_eq {k : Ptk} (h : k.high - k.tick ≤ 140737488355327) : k.debtField = leSigned 6 (k.high - k.tick) := if_pos h

theorem Ptk.speed_zero {k : Ptk} (h : k.motion = .stalled ∨ k.tick < k.high ∨ k.interval = none) : k.speed = 0 := by
  have hdebt : 0 < k.debt ↔ k.tick < k.high := by unfold Ptk.debt; omega
  unfold Ptk.speed
  split
  · rfl
  · next hno =>
    rcases h with h | h | h
    · exact absurd (.inl h) hno
    · exact absurd (.inr (hdebt.mpr h)) hno
    · rw [h]

theorem Ptk.speed_eq {k : Ptk} {i : Nat} (hm : k.motion = .moving) (hd : k.high ≤ k.tick) (hi : k.interval = some i) :
    k.speed = k.scale.pitch * 100 / i := by
  have hno : ¬ (k.motion = .stalled ∨ 0 < k.debt) := by
    rintro (h | h)
    · rw [hm] at h; cases h
    · unfold Ptk.debt at h; omega
  rw [Ptk.speed, if_neg hno, hi]

/-- A command that has been taken finds the part's readings as they were. -/
theorem State.took_statusRecord (s : State) (p : Port) (rest : List InPacket) : (s.took p rest).statusRecord = s.statusRecord := by
  have ha : (s.took p rest).ports.a.link = s.ports.a.link := by
    obtain ⟨i, h⟩ := s.took_get p .a rest
    have : ((s.took p rest).ports.get .a).link = (s.ports.get .a).link := by rw [h]
    exact this
  have hb : (s.took p rest).ports.b.link = s.ports.b.link := by
    obtain ⟨i, h⟩ := s.took_get p .b rest
    have : ((s.took p rest).ports.get .b).link = (s.ports.get .b).link := by rw [h]
    exact this
  obtain ⟨-, -, -, hptk, -, hlanes, hfrt, hslm, -, hdle, hrnc, hntu⟩ := s.took_frame p rest
  unfold State.statusRecord State.framesInStore State.slotsIn
  rw [ha, hb, hptk, hlanes, hfrt, hslm, hdle, hrnc, hntu]

theorem State.status_lane (s : State) (l : Fin 8) : bytesAt s.statusRecord (30 + 2 * l.val) 2 = laneStatus (s.lanes.get l) := by
  refine s.bytesAt_status (4 + l.val) ?_ ?_ (laneStatus_length _)
  · fin_cases l <;> rfl
  · revert l; decide

/-! ## The oldest and newest frames (R89, R187) -/

theorem State.status_presence (s : State) :
    bytesAt s.statusRecord 50 2 = le 1 (bits [(oldestOf s.framesInStore).isSome, (newestOf s.framesInStore).isSome]) ++ le 1 0 :=
  s.bytesAt_status 13 rfl rfl (by rw [List.length_append, le_length, le_length])

theorem State.status_oldest (s : State) : bytesAt s.statusRecord 52 4 = le 4 (frameOrZero (oldestOf s.framesInStore)) :=
  s.bytesAt_status 14 rfl rfl (le_length _ _)

theorem State.status_newest (s : State) : bytesAt s.statusRecord 56 4 = le 4 (frameOrZero (newestOf s.framesInStore)) :=
  s.bytesAt_status 15 rfl rfl (le_length _ _)

theorem bytesAt_add (r : List Byte) (offset m n : Nat) : bytesAt r offset (m + n) = bytesAt r offset m ++ bytesAt r (offset + m) n := by
  simp only [bytesAt, List.take_add, List.drop_drop]

theorem State.status_frames_none {s : State} (h : ∀ x ∈ s.slm.slots, x.state = .free) :
    bytesAt s.statusRecord 50 10 = List.replicate 10 0 := by
  have hnone : s.framesInStore = [] := List.eq_nil_iff_forall_not_mem.mpr fun x hx =>
    (State.mem_framesInStore.mp hx).2 (h x (State.mem_framesInStore.mp hx).1)
  have hoo : oldestOf s.framesInStore = none := by rw [hnone]; rfl
  have hnn : newestOf s.framesInStore = none := by rw [hnone]; rfl
  rw [show (10 : Nat) = 2 + (4 + 4) from rfl, bytesAt_add, bytesAt_add, s.status_presence, s.status_oldest, s.status_newest, hoo, hnn]
  decide

theorem State.status_presence_some {s : State} (h : ∃ x ∈ s.slm.slots, x.state ≠ .free) : bytesAt s.statusRecord 50 2 = [3, 0] := by
  obtain ⟨x, hx, hfree⟩ := h
  have hmem := State.mem_framesInStore.mpr ⟨hx, hfree⟩
  obtain ⟨_, -, ho, -⟩ := oldestOf_spec hmem
  obtain ⟨_, -, hn, -⟩ := newestOf_spec hmem
  rw [s.status_presence, ho, hn, Option.isSome_some, Option.isSome_some]
  decide

/-- Settles O10: field by field. -/
theorem getStatusReadsThePart : Obligations.GetStatusReadsThePart := by
  intro p s c rest htake hp
  have hr : s.firstRefusal p c = none := State.admits_any (row := ⟨codeGetStatus, 0, .any, true⟩) (by decide) rfl (fun _ => rfl) hp
  refine ⟨s.statusRecord, ?_, s.statusRecord_length, ?_, fun h => ?_, ?_, ?_, Ptk.speed_zero, fun i hm hd hi => Ptk.speed_eq hm hd hi,
    fun l => s.status_lane l, ?_, State.status_frames_none, State.status_presence_some, fun i hi hfree => ⟨fun h => ?_, fun h => ?_⟩,
    ?_, ?_⟩
  · rw [← s.took_statusRecord p rest]
    exact exec_accept rfl htake hp hr rfl
  · rw [← s.ptk.direction_code]
    exact s.bytesAt_status 0 rfl rfl (by simp only [List.length_append, le_length])
  · rw [← Ptk.debtField_eq h]
    exact s.bytesAt_status 1 rfl rfl (Ptk.debtField_length _)
  · exact s.bytesAt_status 2 rfl rfl (by simp only [List.length_append, leSigned_length])
  · exact s.bytesAt_status 3 rfl rfl (by simp only [List.length_append, le_length, leSigned_length])
  · exact s.bytesAt_status 12 rfl rfl (by simp only [List.length_append, le_length])
  · rw [s.status_oldest, State.oldest_eq hi hfree h]; rfl
  · rw [s.status_newest, State.newest_eq hi hfree h]; rfl
  · exact s.bytesAt_status 16 rfl rfl (by simp only [List.length_append, le_length])
  · exact s.bytesAt_status 17 rfl rfl (by simp only [List.length_append, le_length])

end Sys2Proof.Machine

/-! # The frames, their slots and their delivery records, as a ledger

What the agreement of frames, slots and records turns on is little of the state. It is read as a ledger here, so that a step that moves
none of it keeps the agreement by an equation, and the few that move it are told as changes of the ledger. -/

namespace Sys2Proof.Machine

/-- What the agreement turns on of a slot. -/
@[ext] structure Holding where
  state : SlotState
  alloc : Nat
  frame : Nat
  start : Int
  stop : Option Int
  outstanding : List (Fin 8)

/-- What the agreement turns on of a delivery record. -/
@[ext] structure Charge where
  slot : Nat
  alloc : Nat
  state : RecordState

def Slot.holding (x : Slot) : Holding :=
  { state := x.state, alloc := x.alloc, frame := x.frame, start := x.start, stop := x.stop, outstanding := x.outstanding }

def Delivery.charge (d : Delivery) : Charge := { slot := d.slot, alloc := d.alloc, state := d.state }

/-- The slots, the records, the routes' ports, and what is in transmission. -/
@[ext] structure Ledger where
  slot : Nat → Holding
  counter : Nat
  records : Fin 8 → List Charge
  home : Fin 8 → Port
  down : Port → Bool
  source : Port → Option TxSource
  run : RunState

def HostPort.source (h : HostPort) : Option TxSource := h.tx.map Tx.source

def State.ledger (s : State) : Ledger where
  slot i := (s.slot i).holding
  counter := s.slm.allocCounter
  records r := (s.dle.records.get r).map Delivery.charge
  home r := (s.dle.routes.get r).port
  down p := decide ((s.ports.get p).link = .down)
  source p := (s.ports.get p).source
  run := s.rnc.runState

/-- The agreement of frames, slots and records (`State.framesOk`), of a ledger and an open list. -/
structure Ledger.Ok (L : Ledger) (fs : List OpenFrame) : Prop where
  distinct : (fs.map OpenFrame.slot).Nodup
  opened : ∀ f ∈ fs, (L.slot f.slot).state = .opened ∧ (L.slot f.slot).frame = f.number ∧ (L.slot f.slot).start = f.start
    ∧ (L.slot f.slot).stop = f.stop
  own : ∀ i j, (L.slot i).state ≠ .free → (L.slot j).state ≠ .free → (L.slot i).alloc = (L.slot j).alloc → i = j
  nonzero : ∀ i, (L.slot i).state ≠ .free → (L.slot i).alloc ≠ 0
  config : L.run = .config → ∀ i, (L.slot i).state = .free ∨ (L.slot i).state = .held
  single : ∀ r, ((L.records r).map Charge.alloc).Nodup
  stored : ∀ r, ∀ d ∈ L.records r, (L.slot d.slot).alloc = d.alloc ∧ (L.slot d.slot).state ≠ .free
  owed : ∀ r, ∀ d ∈ L.records r, d.state.final = false → r ∈ (L.slot d.slot).outstanding ∧ (L.slot d.slot).state ≠ .held
  idle : ∀ p, L.down p = true → L.source p = none
  numbered : ∀ p x, L.source p = some x → x.openAlloc ≤ L.counter
  sending : ∀ p r, ∀ d ∈ L.records r, L.source p = some (.frameOpen r d.alloc) → d.state = .pending ∧ L.home r = p

/-! ## The ledger of a state agrees as the state does -/

theorem HostPort.sendingOpen_iff (h : HostPort) (r : Fin 8) (alloc : Nat) :
    h.sendingOpen r alloc = true ↔ h.source = some (.frameOpen r alloc) := by
  unfold HostPort.sendingOpen HostPort.source
  rcases h.tx with _ | ⟨source, k⟩
  · simp
  · cases source <;> simp

theorem State.slot_of_le (s : State) {i : Nat} (h : s.slm.slots.length ≤ i) : s.slot i = Slot.empty := by
  unfold State.slot
  rw [List.getD_eq_getElem?_getD, List.getElem?_eq_none h]
  rfl

theorem State.lt_of_slot_ne_free (s : State) {i : Nat} (h : (s.slot i).state ≠ .free) : i < s.slm.slots.length := by
  by_contra hle
  rw [s.slot_of_le (Nat.not_lt.mp hle)] at h
  exact h rfl

/-- The frames in store have allocation numbers of their own when no two slots that are not FREE share one. -/
theorem State.nodup_allocs_iff (s : State) :
    ((s.slm.slots.filter fun x => x.state ≠ .free).map Slot.alloc).Nodup ↔
      ∀ i j, (s.slot i).state ≠ .free → (s.slot j).state ≠ .free → (s.slot i).alloc = (s.slot j).alloc → i = j := by
  have hpair : ((s.slm.slots.filter fun x => x.state ≠ .free).map Slot.alloc).Nodup ↔
      s.slm.slots.Pairwise fun x y => x.state ≠ .free → y.state ≠ .free → x.alloc ≠ y.alloc := by
    rw [List.Nodup, List.pairwise_map, List.pairwise_filter]
    simp
  rw [hpair, List.pairwise_iff_getElem]
  constructor
  · intro h i j hi hj heq
    have hil := s.lt_of_slot_ne_free hi
    have hjl := s.lt_of_slot_ne_free hj
    rw [s.slot_eq_getElem hil] at hi heq
    rw [s.slot_eq_getElem hjl] at hj heq
    rcases lt_trichotomy i j with hlt | heq' | hlt
    · exact absurd heq (h i j hil hjl hlt hi hj)
    · exact heq'
    · exact absurd heq.symm (h j i hjl hil hlt hj hi)
  · intro h i j hi hj hlt hfi hfj heq
    have := h i j (by rw [s.slot_eq_getElem hi]; exact hfi) (by rw [s.slot_eq_getElem hj]; exact hfj)
      (by rw [s.slot_eq_getElem hi, s.slot_eq_getElem hj]; exact heq)
    omega

theorem State.framesOk_iff (s : State) : s.framesOk ↔ s.ledger.Ok s.frt.openList := by
  have hslots (P : Slot → Prop) (hempty : P Slot.empty) : (∀ x ∈ s.slm.slots, P x) ↔ ∀ i, P (s.slot i) := s.forall_slots_iff P hempty
  have hnonzero := hslots (fun x => x.state ≠ .free → x.alloc ≠ 0) fun h => absurd rfl h
  have hconfig := hslots (fun x => x.state = .free ∨ x.state = .held) (.inl rfl)
  have hsource (h : HostPort) : (h.tx.all fun x => decide (x.source.openAlloc ≤ s.slm.allocCounter)) = true
      ↔ ∀ x, h.source = some x → x.openAlloc ≤ s.slm.allocCounter := by
    unfold HostPort.source
    cases h.tx <;> simp
  have hidle (h : HostPort) : h.source = none ↔ h.tx = none := by unfold HostPort.source; cases h.tx <;> simp
  constructor
  · rintro ⟨⟨hdistinct, hopened⟩, ⟨hown, hnz, hcfg⟩, hrecords, ha, hb⟩
    have hopens (p : Port) : s.opensOk p (s.ports.get p) := by cases p <;> assumption
    refine ⟨hdistinct, fun f hf => ?_, (s.nodup_allocs_iff).mp hown, hnonzero.mp hnz, fun h => hconfig.mp (hcfg h), fun r => ?_,
      fun r d hd => ?_, fun r d hd hfinal => ?_, fun p hp => ?_, fun p => ?_, fun p r d hd hx => ?_⟩
    · obtain ⟨-, hstate, hframe, hstart, hstop⟩ := hopened f hf
      exact ⟨hstate, hframe, hstart, hstop⟩
    · have := (hrecords r).1
      simpa [State.ledger, Delivery.charge, Function.comp_def] using this
    · obtain ⟨e, he, rfl⟩ := List.mem_map.mp hd
      obtain ⟨halloc, hfree, -⟩ := (hrecords r).2 e he
      exact ⟨halloc, hfree⟩
    · obtain ⟨e, he, rfl⟩ := List.mem_map.mp hd
      exact ((hrecords r).2 e he).2.2 hfinal
    · exact (hidle _).mpr ((hopens p).1 (of_decide_eq_true hp))
    · exact (hsource _).mp (hopens p).2.1
    · obtain ⟨e, he, rfl⟩ := List.mem_map.mp hd
      exact (hopens p).2.2 r e he ((HostPort.sendingOpen_iff _ _ _).mpr hx)
  · intro h
    have hopens (p : Port) : s.opensOk p (s.ports.get p) :=
      ⟨fun hp => (hidle _).mp (h.idle p (decide_eq_true hp)), (hsource _).mpr (h.numbered p), fun r d hd hx =>
        h.sending p r d.charge (List.mem_map_of_mem hd) ((HostPort.sendingOpen_iff _ _ _).mp hx)⟩
    refine ⟨⟨h.distinct, fun f hf => ?_⟩, ⟨(s.nodup_allocs_iff).mpr h.own, hnonzero.mpr h.nonzero, fun hr => hconfig.mpr (h.config hr)⟩,
      fun r => ⟨?_, fun d hd => ?_⟩, hopens .a, hopens .b⟩
    · obtain ⟨hstate, hframe, hstart, hstop⟩ := h.opened f hf
      have hlt := s.lt_of_slot_ne_free (i := f.slot) (by
        have : (s.slot f.slot).state = .opened := hstate
        rw [this]; decide)
      exact ⟨hlt, hstate, hframe, hstart, hstop⟩
    · have := h.single r
      simpa [State.ledger, Delivery.charge, Function.comp_def] using this
    · have hd' : d.charge ∈ s.ledger.records r := List.mem_map_of_mem hd
      exact ⟨(h.stored r _ hd').1, (h.stored r _ hd').2, fun hf => h.owed r _ hd' hf⟩

end Sys2Proof.Machine

/-! # The operations that leave the ledger alone -/

namespace Sys2Proof.Machine

/-- The ledger of a state with its open list. -/
def State.book (s : State) : Ledger × List OpenFrame := (s.ledger, s.frt.openList)

theorem State.framesOk_of_book {s t : State} (h : t.book = s.book) (hs : s.framesOk) : t.framesOk := by
  obtain ⟨hledger, hopen⟩ := Prod.mk.inj h
  rw [State.framesOk_iff] at hs ⊢
  rw [hledger, hopen]
  exact hs

/-- What the agreement turns on of a host port. -/
def HostPort.line (h : HostPort) : Bool × Option TxSource := (decide (h.link = .down), h.source)

/-- Two states with one book, said part by part. -/
theorem State.book_eq {s t : State} (hslot : ∀ i, (t.slot i).holding = (s.slot i).holding)
    (hcounter : t.slm.allocCounter = s.slm.allocCounter := by simp)
    (hrecords : ∀ r, (t.dle.records.get r).map Delivery.charge = (s.dle.records.get r).map Delivery.charge := by simp)
    (hhome : ∀ r, (t.dle.routes.get r).port = (s.dle.routes.get r).port := by simp)
    (hline : ∀ p, (t.ports.get p).line = (s.ports.get p).line := by simp)
    (hrun : t.rnc.runState = s.rnc.runState := by simp) (hopen : t.frt.openList = s.frt.openList := by simp) : t.book = s.book := by
  have hledger : t.ledger = s.ledger := by
    apply Ledger.ext
    · exact funext hslot
    · exact hcounter
    · exact funext hrecords
    · exact funext hhome
    · exact funext fun p => congrArg Prod.fst (hline p)
    · exact funext fun p => congrArg Prod.snd (hline p)
    · exact hrun
  rw [State.book, hledger, hopen]
  rfl

theorem State.book_of_same {s t : State} (hslm : t.slm = s.slm := by simp) (hdle : t.dle = s.dle := by simp)
    (hports : t.ports = s.ports := by simp) (hrun : t.rnc.runState = s.rnc.runState := by simp)
    (hopen : t.frt.openList = s.frt.openList := by simp) : t.book = s.book :=
  State.book_eq (fun i => by rw [State.slot, State.slot, hslm]) (by rw [hslm]) (fun r => by rw [hdle]) (fun r => by rw [hdle])
    (fun p => by rw [hports]) hrun hopen

/-- A change of a port that moves no line. -/
theorem State.setPort_book (s : State) (p : Port) (f : HostPort → HostPort) (hf : (f (s.ports.get p)).line = (s.ports.get p).line) :
    (s.setPort p f).book = s.book := by
  refine State.book_eq (fun i => rfl) (hline := fun q => ?_)
  rw [State.setPort_get]
  split
  · next h => rw [hf, h]
  · rfl

@[simp] theorem State.raise_line (s : State) (x : Source) (fr : Option Nat) (l : Option (Fin 8)) (d : Int) (p : Port) :
    ((s.raise x fr l d).ports.get p).line = (s.ports.get p).line := by
  obtain ⟨n, hn⟩ := s.raise_port x fr l d p
  rw [hn]; rfl

@[simp] theorem State.raise_book (s : State) (x : Source) (fr : Option Nat) (l : Option (Fin 8)) (d : Int) :
    (s.raise x fr l d).book = s.book := State.book_eq fun i => by simp [State.slot]

@[simp] theorem State.countPosition_book (s : State) (f : PositionCounters → PositionCounters) :
    (s.countPosition f).book = s.book := State.book_of_same

/-! ## Marks and readiness -/

theorem State.readinessTest_slot (s : State) (i : Nat) : s.readinessTest.slot i = s.readySlot (s.slot i) := by
  have hempty : s.readySlot Slot.empty = Slot.empty := rfl
  simp only [State.slot, State.readinessTest, List.getD_eq_getElem?_getD, List.getElem?_map]
  cases s.slm.slots[i]? with
  | none => exact hempty.symm
  | some x => rfl

/-! ## Ports -/

@[simp] theorem State.took_book (s : State) (p : Port) (rest : List InPacket) : (s.took p rest).book = s.book := s.setPort_book p _ rfl

/-! ## The motion -/

@[simp] theorem State.afterMotion_book (s : State) (line : EncLine) : (s.afterMotion line).book = s.book := by
  unfold State.afterMotion State.moved
  split
  · rfl
  · exact State.raise_book _ _ _ _ _

end Sys2Proof.Machine

/-! # Changes of the ledger: one slot's record -/

namespace Sys2Proof.Machine

/-! ## One slot -/

/-- A slot's holding replaced; a slot that becomes FREE takes the records of its frame with it. -/
def Ledger.put (L : Ledger) (i : Nat) (x : Holding) : Ledger :=
  { L with
    slot := fun j => if j = i then x else L.slot j,
    records := fun r => if x.state = .free then (L.records r).filter fun d => d.alloc ≠ (L.slot i).alloc else L.records r }

section Put

variable {L : Ledger} {i : Nat} {x : Holding}

theorem Ledger.put_slot_same : (L.put i x).slot i = x := if_pos rfl

theorem Ledger.put_slot_ne {j : Nat} (h : j ≠ i) : (L.put i x).slot j = L.slot j := if_neg h

theorem Ledger.mem_put_records {r : Fin 8} {d : Charge} :
    d ∈ (L.put i x).records r ↔ d ∈ L.records r ∧ (x.state = .free → d.alloc ≠ (L.slot i).alloc) := by
  unfold Ledger.put
  dsimp only
  split
  · next h => simp [h]
  · next h => simp [h]

theorem Ledger.put_records_sublist (r : Fin 8) : ((L.put i x).records r).Sublist (L.records r) := by
  unfold Ledger.put
  dsimp only
  split
  · exact List.filter_sublist
  · exact List.Sublist.refl _

/-- What a slot may become that keeps its frame: one with the same allocation number that owes as many routes as its records need. -/
structure Ledger.Succeeds (L : Ledger) (i : Nat) (x : Holding) : Prop where
  held : (L.slot i).state ≠ .free
  alloc : x.alloc = (L.slot i).alloc
  config : L.run = .config → x.state = .held
  owed : ∀ r, ∀ d ∈ L.records r, d.slot = i → d.state.final = false → r ∈ x.outstanding ∧ x.state ≠ .held

/-- A slot freed, or given a record that succeeds its own, keeps the agreement under an open list that fits it. -/
theorem Ledger.Ok.put {fs gs : List OpenFrame} (h : L.Ok fs) (hdistinct : (gs.map OpenFrame.slot).Nodup)
    (hopened : ∀ f ∈ gs, f.slot ≠ i ∧ f ∈ fs
      ∨ f.slot = i ∧ x.state = .opened ∧ x.frame = f.number ∧ x.start = f.start ∧ x.stop = f.stop)
    (hx : x.state ≠ .free → L.Succeeds i x) : (L.put i x).Ok gs := by
  have hkeeps (j : Nat) (hj : ((L.put i x).slot j).state ≠ .free) :
      (L.slot j).state ≠ .free ∧ ((L.put i x).slot j).alloc = (L.slot j).alloc := by
    by_cases hji : j = i
    · subst hji
      rw [Ledger.put_slot_same] at hj ⊢
      exact ⟨(hx hj).held, (hx hj).alloc⟩
    · rw [Ledger.put_slot_ne hji] at hj ⊢
      exact ⟨hj, rfl⟩
  constructor
  case distinct => exact hdistinct
  case opened =>
    intro f hf
    rcases hopened f hf with ⟨hne, hfs⟩ | ⟨rfl, hnew⟩
    · rw [Ledger.put_slot_ne hne]; exact h.opened f hfs
    · rw [Ledger.put_slot_same]; exact hnew
  case own =>
    intro j k hj hk heq
    rw [(hkeeps j hj).2, (hkeeps k hk).2] at heq
    exact h.own j k (hkeeps j hj).1 (hkeeps k hk).1 heq
  case nonzero =>
    intro j hj
    rw [(hkeeps j hj).2]
    exact h.nonzero j (hkeeps j hj).1
  case config =>
    intro hr j
    by_cases hji : j = i
    · subst hji
      rw [Ledger.put_slot_same]
      by_cases hfree : x.state = .free
      · exact .inl hfree
      · exact .inr ((hx hfree).config hr)
    · rw [Ledger.put_slot_ne hji]; exact h.config hr j
  case single => exact fun r => (h.single r).sublist ((Ledger.put_records_sublist r).map _)
  case stored =>
    intro r d hd
    obtain ⟨hd, hfree⟩ := Ledger.mem_put_records.mp hd
    obtain ⟨halloc, hstate⟩ := h.stored r d hd
    by_cases hdi : d.slot = i
    · have hxf : x.state ≠ .free := fun hxf => hfree hxf (by rw [← hdi, halloc])
      rw [hdi, Ledger.put_slot_same]
      exact ⟨by rw [(hx hxf).alloc, ← hdi, halloc], hxf⟩
    · rw [Ledger.put_slot_ne hdi]; exact ⟨halloc, hstate⟩
  case owed =>
    intro r d hd hfinal
    obtain ⟨hd, hfree⟩ := Ledger.mem_put_records.mp hd
    by_cases hdi : d.slot = i
    · have hxf : x.state ≠ .free := fun hxf => hfree hxf (by rw [← hdi, (h.stored r d hd).1])
      rw [hdi, Ledger.put_slot_same]
      exact (hx hxf).owed r d hd hdi hfinal
    · rw [Ledger.put_slot_ne hdi]; exact h.owed r d hd hfinal
  case idle => exact h.idle
  case numbered => exact h.numbered
  case sending => exact fun p r d hd => h.sending p r d (Ledger.mem_put_records.mp hd).1

/-- The oldest open frame's slot, once closed or freed, leaves the open list. -/
theorem Ledger.Ok.put_oldest {f : OpenFrame} {fs : List OpenFrame} (h : L.Ok (f :: fs)) (hi : f.slot = i)
    (hx : x.state ≠ .free → L.Succeeds i x) : (L.put i x).Ok fs := by
  obtain ⟨hnot, hdistinct⟩ := List.nodup_cons.mp h.distinct
  exact h.put hdistinct (fun g hg => .inl ⟨fun hgi => hnot (by rw [hi, ← hgi]; exact List.mem_map_of_mem hg), List.mem_cons_of_mem _ hg⟩) hx

/-- With an OPEN frame the run state is not CONFIG. -/
theorem Ledger.Ok.not_config {fs : List OpenFrame} (h : L.Ok fs) (hi : (L.slot i).state ≠ .free) (hj : (L.slot i).state ≠ .held) :
    L.run ≠ .config := fun hr => (h.config hr i).elim hi hj

end Put

end Sys2Proof.Machine

/-! # One slot taken: freeing, closing, bounding -/

namespace Sys2Proof.Machine

/-- From s to t one slot takes another record, with the delivery records of its frame gone where that is FREE; of the rest neither slots and
records, nor routes, ports' lines, framing or the part's setup move. -/
structure Takes (s t : State) (i : Nat) (x : Slot) : Prop where
  slot : ∀ j, t.slot j = if j = i then x else s.slot j
  records : ∀ r, t.dle.records.get r
    = if x.state = .free then (s.dle.records.get r).filter fun d => d.alloc ≠ (s.slot i).alloc else s.dle.records.get r
  counter : t.slm.allocCounter = s.slm.allocCounter
  routes : t.dle.routes = s.dle.routes
  line : ∀ p, (t.ports.get p).line = (s.ports.get p).line
  rnc : t.rnc = s.rnc
  frt : t.frt = s.frt
  lanes : t.lanes = s.lanes
  tru : t.tru = s.tru
  ptk : t.ptk = s.ptk

section Takes

variable {s t u : State} {i : Nat} {x y : Slot}

theorem Takes.ledger (h : Takes s t i x) : t.ledger = s.ledger.put i x.holding := by
  apply Ledger.ext
  · funext j
    show (t.slot j).holding = if j = i then x.holding else (s.slot j).holding
    rw [h.slot]
    split <;> rfl
  · exact h.counter
  · funext r
    show (t.dle.records.get r).map Delivery.charge = if x.state = .free then _ else _
    rw [h.records]
    split
    · show _ = ((s.dle.records.get r).map Delivery.charge).filter _
      rw [List.filter_map]
      rfl
    · rfl
  · exact funext fun r => congrArg (fun d => (d.get r).port) h.routes
  · exact funext fun p => congrArg Prod.fst (h.line p)
  · exact funext fun p => congrArg Prod.snd (h.line p)
  · exact congrArg Rnc.runState h.rnc

theorem Takes.slot_same (h : Takes s t i x) : t.slot i = x := by rw [h.slot, if_pos rfl]

theorem Takes.slot_ne (h : Takes s t i x) {j : Nat} (hj : j ≠ i) : t.slot j = s.slot j := by rw [h.slot, if_neg hj]

/-- A slot taken twice, the first time by a record of the same frame. -/
theorem Takes.trans (h : Takes s t i x) (h' : Takes t u i y) (hx : x.state ≠ .free) (ha : x.alloc = (s.slot i).alloc) : Takes s u i y where
  slot j := by
    rw [h'.slot, h.slot]
    split <;> rfl
  records r := by rw [h'.records, h.records, h.slot_same, ha, if_neg hx]
  counter := h'.counter.trans h.counter
  routes := h'.routes.trans h.routes
  line p := (h'.line p).trans (h.line p)
  rnc := h'.rnc.trans h.rnc
  frt := h'.frt.trans h.frt
  lanes := h'.lanes.trans h.lanes
  tru := h'.tru.trans h.tru
  ptk := h'.ptk.trans h.ptk

/-- What follows without touching slots, records, routes, lines, run state or framing leaves the taking as it is. -/
theorem Takes.after (h : Takes s t i x) (hslm : u.slm = t.slm := by simp) (hdle : u.dle = t.dle := by simp)
    (hline : ∀ p, (u.ports.get p).line = (t.ports.get p).line := by simp) (hrnc : u.rnc = t.rnc := by simp)
    (hfrt : u.frt = t.frt := by simp) (hlanes : u.lanes = t.lanes := by simp) (htru : u.tru = t.tru := by simp)
    (hptk : u.ptk = t.ptk := by simp) : Takes s u i x where
  slot j := by rw [← h.slot, State.slot, State.slot, hslm]
  records r := by rw [hdle]; exact h.records r
  counter := by rw [hslm]; exact h.counter
  routes := by rw [hdle]; exact h.routes
  line p := (hline p).trans (h.line p)
  rnc := hrnc.trans h.rnc
  frt := hfrt.trans h.frt
  lanes := hlanes.trans h.lanes
  tru := htru.trans h.tru
  ptk := hptk.trans h.ptk

theorem State.freeSlot_takes (s : State) (i : Nat) : Takes s (s.freeSlot i) i Slot.empty where
  slot j := s.freeSlot_slot i j
  records r := by rw [State.freeSlot_records]; exact (if_pos rfl).symm
  counter := by simp
  routes := by simp
  line p := by simp
  rnc := by simp
  frt := by simp
  lanes := by simp
  tru := by simp
  ptk := by simp

theorem State.setSlot_slot_of_ne_free (s : State) {i : Nat} (h : (s.slot i).state ≠ .free) (f : Slot → Slot) (j : Nat) :
    (s.setSlot i f).slot j = if j = i then f (s.slot i) else s.slot j := by
  rw [State.setSlot_slot _ _ _ _ (s.lt_of_slot_ne_free h)]

theorem State.setSlot_takes (s : State) {i : Nat} (h : (s.slot i).state ≠ .free) (f : Slot → Slot)
    (hf : (f (s.slot i)).state ≠ .free) : Takes s (s.setSlot i f) i (f (s.slot i)) where
  slot j := s.setSlot_slot_of_ne_free h f j
  records r := by rw [if_neg hf]; simp
  counter := by simp
  routes := by simp
  line p := by simp
  rnc := by simp
  frt := by simp
  lanes := by simp
  tru := by simp
  ptk := by simp

/-- Nothing taken: the slot keeps its record. -/
theorem Takes.refl (s : State) {i : Nat} (h : (s.slot i).state ≠ .free) : Takes s s i (s.slot i) where
  slot j := by split <;> simp [*]
  records r := by rw [if_neg h]
  counter := rfl
  routes := rfl
  line _ := rfl
  rnc := rfl
  frt := rfl
  lanes := rfl
  tru := rfl
  ptk := rfl

/-! ## The freeing test (R94) -/

/-- What the freeing test makes of a slot's record. -/
def Slot.tested (x : Slot) : Slot :=
  if x.state = .closed ∧ x.outstanding = [] ∧ x.pendingRereads = 0 then
    if x.retain then { x with state := .held, retain := false } else Slot.empty
  else x

theorem State.freeingTest_takes (s : State) {i : Nat} (h : (s.slot i).state ≠ .free) :
    Takes s (s.freeingTest i) i (s.slot i).tested := by
  unfold Slot.tested
  rcases s.freeingTest_cases i with ⟨hno, ht⟩ | ⟨hc, ho, hp, ⟨hr, ht⟩ | ⟨hr, ht⟩⟩
  · rw [if_neg hno, ht]; exact .refl s h
  · rw [if_pos ⟨hc, ho, hp⟩, if_pos hr, ht]; exact s.setSlot_takes h _ SlotState.noConfusion
  · rw [if_pos ⟨hc, ho, hp⟩, if_neg (by simp [hr]), ht]; exact s.freeSlot_takes i

/-- A close's record, before the freeing test: the row count and reason, the runs clipped, the lanes degraded, every band ready (R95, R116). -/
def Slot.settled (x : Slot) (rows : Nat) (reason : CloseReason) : Slot :=
  { x with
    state := .closed, rowCount := some rows, closeReason := some reason, fillRuns := clipRuns rows x.fillRuns,
    degraded := x.degradedBelow rows,
    ready :=
      { closed := true, top := x.ready.top.map fun _ => x.geometry.bands rows,
        bottom := x.ready.bottom.map fun _ => x.geometry.bands rows } }

theorem Slot.closedAs_eq (x : Slot) (rows : Nat) (reason : CloseReason) : x.closedAs rows reason = (x.settled rows reason).tested := by
  unfold Slot.closedAs Slot.tested
  have hcond : ((x.settled rows reason).state = .closed ∧ (x.settled rows reason).outstanding = []
      ∧ (x.settled rows reason).pendingRereads = 0) ↔ (x.outstanding = [] ∧ x.pendingRereads = 0) :=
    ⟨fun h => h.2, fun h => ⟨rfl, h⟩⟩
  simp only [hcond]
  rfl

theorem State.closeSlot_eq (s : State) (i rows : Nat) (reason : CloseReason) :
    s.closeSlot i rows reason = (s.setSlot i fun x => x.settled rows reason).freeingTest i := rfl

theorem State.closeSlot_takes (s : State) {i : Nat} (h : (s.slot i).state ≠ .free) (rows : Nat) (reason : CloseReason) :
    Takes s (s.closeSlot i rows reason) i ((s.slot i).closedAs rows reason) := by
  have hset := s.setSlot_takes h (fun x => x.settled rows reason) SlotState.noConfusion
  have hstate : ((s.setSlot i fun x => x.settled rows reason).slot i).state ≠ .free := by rw [hset.slot_same]; exact SlotState.noConfusion
  have htest := State.freeingTest_takes _ hstate
  rw [hset.slot_same, ← Slot.closedAs_eq] at htest
  exact hset.trans htest SlotState.noConfusion rfl

/-- A closed slot is not OPEN. -/
theorem Slot.closedAs_state (x : Slot) (rows : Nat) (reason : CloseReason) :
    (x.closedAs rows reason).state = .free ∧ x.closedAs rows reason = Slot.empty
      ∨ (x.closedAs rows reason).state = .held ∧ x.outstanding = [] ∧ (x.closedAs rows reason).alloc = x.alloc
        ∧ (x.closedAs rows reason).outstanding = x.outstanding
      ∨ (x.closedAs rows reason).state = .closed ∧ (x.closedAs rows reason).alloc = x.alloc
        ∧ (x.closedAs rows reason).outstanding = x.outstanding := by
  unfold Slot.closedAs
  dsimp only
  split
  · next h =>
    split
    · exact .inr (.inl ⟨rfl, h.1, rfl, rfl⟩)
    · exact .inl ⟨rfl, rfl⟩
  · exact .inr (.inr ⟨rfl, rfl, rfl⟩)

/-- What the freeing test leaves: the record as it was, a HELD one, or a cleared one, the last two of a CLOSED slot that owes no route. -/
theorem Slot.tested_cases (x : Slot) :
    x.tested = x
      ∨ x.state = .closed ∧ x.outstanding = []
        ∧ (x.tested = { x with state := .held, retain := false } ∨ x.tested = Slot.empty) := by
  unfold Slot.tested
  split
  · next h =>
    refine .inr ⟨h.1, h.2.1, ?_⟩
    split
    · exact .inl rfl
    · exact .inr rfl
  · exact .inl rfl

end Takes

/-! ## The agreement over one slot taken -/

section Agree

variable {s t : State} {i : Nat} {x : Slot} {fs : List OpenFrame}

/-- The close of the oldest open frame. -/
theorem Takes.closed_ok {f : OpenFrame} {rows : Nat} {reason : CloseReason} (h : s.ledger.Ok (f :: fs))
    (ht : Takes s t f.slot ((s.slot f.slot).closedAs rows reason)) : t.ledger.Ok fs := by
  have hopen : (s.slot f.slot).state = .opened := (h.opened f List.mem_cons_self).1
  have hrun : s.ledger.run ≠ .config := h.not_config (i := f.slot) (by show (s.slot f.slot).state ≠ _; rw [hopen]; decide)
    (by show (s.slot f.slot).state ≠ _; rw [hopen]; decide)
  rw [ht.ledger]
  refine h.put_oldest rfl fun hfree => ⟨by show (s.slot f.slot).state ≠ _; rw [hopen]; decide, ?_, fun hr => absurd hr hrun,
    fun r d hd hdi hfinal => ?_⟩
  · rcases (s.slot f.slot).closedAs_state rows reason with ⟨hs, -⟩ | ⟨-, -, ha, -⟩ | ⟨-, ha, -⟩
    · exact absurd hs hfree
    · exact ha
    · exact ha
  · have howed := (h.owed r d hd hfinal).1
    rw [hdi] at howed
    rcases (s.slot f.slot).closedAs_state rows reason with ⟨hs, -⟩ | ⟨-, hout, -⟩ | ⟨hs, -, hout⟩
    · exact absurd hs hfree
    · have : r ∈ (s.slot f.slot).outstanding := howed
      rw [hout] at this; cases this
    · exact ⟨by show r ∈ ((s.slot f.slot).closedAs rows reason).outstanding; rw [hout]; exact howed,
        by show ((s.slot f.slot).closedAs rows reason).state ≠ _; rw [hs]; decide⟩

/-- The oldest open frame, freed. -/
theorem Takes.freed_ok {f : OpenFrame} (h : s.ledger.Ok (f :: fs)) (ht : Takes s t f.slot Slot.empty) : t.ledger.Ok fs := by
  rw [ht.ledger]
  exact h.put_oldest rfl fun hne => absurd rfl hne

end Agree

end Sys2Proof.Machine

/-! # Closing frames from the oldest on (R76, R77, R82) -/

namespace Sys2Proof.Machine

/-! ## What a close test reads -/

/-- The same lanes, triggers, run state, stop tick and position: what a close, and a row count, are judged by. -/
abbrev SameGates (s t : State) : Prop :=
  t.lanes = s.lanes ∧ t.tru = s.tru ∧ t.rnc = s.rnc ∧ t.frt.stopTick = s.frt.stopTick ∧ t.ptk = s.ptk

section Gates

variable {s t : State}

theorem SameGates.effective (h : SameGates s t) (high : Int) (l : Fin 8) : t.effective high l = s.effective high l := by
  obtain ⟨hlanes, htru, hrnc, hstop, -⟩ := h
  unfold State.effective State.progress State.unfinished
  rw [hlanes, htru, hrnc, hstop]

theorem SameGates.enabledLanes (h : SameGates s t) : t.enabledLanes = s.enabledLanes := by
  unfold State.enabledLanes
  rw [h.1]

theorem SameGates.passes (h : SameGates s t) (high : Int) (f : OpenFrame) : t.passes high f = s.passes high f := by
  unfold State.passes State.allReached
  rw [h.enabledLanes]
  simp only [h.effective]

theorem SameGates.shortRows (h : SameGates s t) (high : Int) (f : OpenFrame) : t.shortRows high f = s.shortRows high f := by
  unfold State.shortRows
  rw [h.enabledLanes]
  simp only [h.effective]

theorem Takes.gates {i : Nat} {x : Slot} (h : Takes s t i x) : SameGates s t :=
  ⟨h.lanes, h.tru, h.rnc, by rw [h.frt], h.ptk⟩

theorem SameGates.trans {u : State} (h : SameGates s t) (h' : SameGates t u) : SameGates s u :=
  ⟨h'.1.trans h.1, h'.2.1.trans h.2.1, h'.2.2.1.trans h.2.2.1, h'.2.2.2.1.trans h.2.2.2.1, h'.2.2.2.2.trans h.2.2.2.2⟩

end Gates

theorem State.passes_iff (s : State) (high : Int) (f : OpenFrame) : s.passes high f = true ↔ s.passesClose high f := by
  unfold State.passes State.passesClose State.allReached
  cases f.stop with
  | none => simp
  | some e => simp [State.mem_enabledLanes]

/-- The least of a list is a member, and at most each of them. -/
theorem least_spec {xs : List Int} {x : Int} (hx : x ∈ xs) : ∃ m ∈ xs, least xs = some m ∧ ∀ y ∈ xs, m ≤ y := by
  cases xs with
  | nil => cases hx
  | cons z xs =>
    have hmin : ∀ (ys : List Int) (z : Int), ys.foldl min z ∈ z :: ys ∧ ∀ y ∈ z :: ys, ys.foldl min z ≤ y := by
      intro ys
      induction ys with
      | nil => intro z; simp
      | cons y ys ih =>
        intro z
        obtain ⟨hmem, hle⟩ := ih (min z y)
        have hhead := hle _ List.mem_cons_self
        refine ⟨?_, fun w hw => ?_⟩
        · rcases List.mem_cons.mp hmem with h | h
          · rw [List.foldl_cons, h]
            rcases min_choice z y with hz | hz <;> rw [hz] <;> simp
          · exact List.mem_cons_of_mem _ (List.mem_cons_of_mem _ h)
        · rw [List.foldl_cons]
          rcases List.mem_cons.mp hw with rfl | hw
          · exact hhead.trans (min_le_left _ _)
          · rcases List.mem_cons.mp hw with rfl | hw
            · exact hhead.trans (min_le_right _ _)
            · exact hle w (List.mem_cons_of_mem _ hw)
    exact ⟨_, (hmin xs z).1, rfl, (hmin xs z).2⟩

/-- The short row count of R77 is the model's. -/
theorem State.shortRows_eq {s : State} {high : Int} {f : OpenFrame} {r : Int} (h : s.isShortRows high f r) : s.shortRows high f = r := by
  obtain ⟨⟨l, hl⟩, hlanes, hstop, hreached⟩ := h
  obtain ⟨m, hm, hleast, hle⟩ := least_spec (List.mem_map_of_mem (f := fun l => s.effective high l - f.start + 1)
    ((s.mem_enabledLanes l).mpr hl))
  obtain ⟨k, hk, rfl⟩ := List.mem_map.mp hm
  have hkr := hlanes k ((s.mem_enabledLanes k).mp hk)
  have hbelow (j : Fin 8) (hj : (s.lanes.get j).record.enable = true) : s.effective high k - f.start + 1 ≤ s.effective high j - f.start + 1 :=
    hle _ (List.mem_map_of_mem (f := fun l => s.effective high l - f.start + 1) ((s.mem_enabledLanes j).mpr hj))
  unfold State.shortRows
  rw [hleast]
  dsimp only
  cases hf : f.stop with
  | none =>
    rcases hreached with ⟨j, hj, rfl⟩ | ⟨e, he, -⟩
    · exact le_antisymm (hbelow j hj) hkr
    · rw [hf] at he; cases he
  | some e =>
    have her := hstop e hf
    dsimp only
    rcases hreached with ⟨j, hj, rfl⟩ | ⟨e', he', rfl⟩
    · have := hbelow j hj
      omega
    · rw [hf] at he'
      cases he'
      omega

/-! ## One frame -/

/-- What a short close makes of a slot: closed with the short row count, or freed where that is not positive (R77). -/
def State.shortened (s : State) (high : Int) (reason : CloseReason) (f : OpenFrame) (x : Slot) : Slot :=
  if 1 ≤ s.shortRows high f then x.closedAs (s.shortRows high f).toNat reason else Slot.empty

/-- What a full close makes of a slot (R76). -/
def OpenFrame.finished (f : OpenFrame) (x : Slot) : Slot :=
  x.closedAs (f.stop.getD f.start - f.start).toNat (if f.truncated then .truncated else .normal)

/-- What the close at stop makes of a slot (R82). -/
def State.endedAtStop (s : State) (f : OpenFrame) (x : Slot) : Slot :=
  if s.passes s.ptk.high f then f.finished x else s.shortened s.ptk.high .shortStop f x

/-- A change of a slot that closes or frees it. -/
def Closing (after : OpenFrame → Slot → Slot) : Prop :=
  ∀ f x, (∃ rows reason, after f x = x.closedAs rows reason) ∨ after f x = Slot.empty

theorem OpenFrame.finished_closing : Closing OpenFrame.finished := fun _ _ => .inl ⟨_, _, rfl⟩

theorem State.shortened_closing (s : State) (high : Int) (reason : CloseReason) : Closing (s.shortened high reason) := by
  intro f x
  unfold State.shortened
  split
  · exact .inl ⟨_, _, rfl⟩
  · exact .inr rfl

theorem State.endedAtStop_closing (s : State) : Closing s.endedAtStop := by
  intro f x
  unfold State.endedAtStop
  split
  · exact OpenFrame.finished_closing f x
  · exact s.shortened_closing _ _ f x

/-- A slot closed or freed is not OPEN. -/
theorem Closing.not_opened {after : OpenFrame → Slot → Slot} (h : Closing after) (f : OpenFrame) (x : Slot) : (after f x).state ≠ .opened := by
  rcases h f x with ⟨rows, reason, h⟩ | h
  · rw [h]
    rcases x.closedAs_state rows reason with ⟨hs, -⟩ | ⟨hs, -⟩ | ⟨hs, -⟩ <;> rw [hs] <;> decide
  · rw [h]; decide

section OneFrame

variable {s : State} {f : OpenFrame}

theorem State.fullClose_takes (h : (s.slot f.slot).state = .opened) : Takes s (s.fullClose f) f.slot (f.finished (s.slot f.slot)) :=
  s.closeSlot_takes (by rw [h]; decide) _ _

theorem State.shortClose_takes (h : (s.slot f.slot).state = .opened) (high : Int) (reason : CloseReason) :
    Takes s (s.shortClose high reason f) f.slot (s.shortened high reason f (s.slot f.slot)) := by
  unfold State.shortClose State.shortened
  dsimp only
  split
  · exact (s.closeSlot_takes (by rw [h]; decide) _ _).after
  · exact (s.freeSlot_takes _).after

theorem State.stopClose_takes (h : (s.slot f.slot).state = .opened) :
    Takes s (s.stopClose f) f.slot (s.endedAtStop f (s.slot f.slot)) := by
  rw [State.stopClose_eq]
  unfold State.endedAtStop
  split
  · exact State.fullClose_takes h
  · exact State.shortClose_takes h _ _

end OneFrame

/-! ## A list of frames -/

/-- From s to t the slots of a list of open frames have been closed or freed, and nothing else of slots, records and gates has moved. -/
structure ListClosed (after : OpenFrame → Slot → Slot) (s t : State) (fs : List OpenFrame) : Prop where
  listed : ∀ f ∈ fs, t.slot f.slot = after f (s.slot f.slot)
  others : ∀ i, (∀ f ∈ fs, f.slot ≠ i) → t.slot i = s.slot i
  records : ∀ r, t.dle.records.get r = (s.dle.records.get r).filter fun d => (t.slot d.slot).state ≠ .free
  gates : SameGates s t

/-- While frames, slots and records agree, the records that leave with a slot are those of the slot that has become FREE. -/
theorem Takes.records_eq {s t : State} {i : Nat} {x : Slot} {fs : List OpenFrame} (h : Takes s t i x) (hok : s.ledger.Ok fs)
    (hi : (s.slot i).state ≠ .free) (r : Fin 8) :
    t.dle.records.get r = (s.dle.records.get r).filter fun d => (t.slot d.slot).state ≠ .free := by
  rw [h.records]
  have hstored (d : Delivery) (hd : d ∈ s.dle.records.get r) : (s.slot d.slot).alloc = d.alloc ∧ (s.slot d.slot).state ≠ .free :=
    hok.stored r d.charge (List.mem_map_of_mem hd)
  split
  · next hfree =>
    refine List.filter_congr fun d hd => decide_eq_decide.mpr ?_
    obtain ⟨ha, hs⟩ := hstored d hd
    by_cases hdi : d.slot = i
    · rw [hdi, h.slot_same]
      exact ⟨fun hne => absurd (by rw [← hdi, ha]) hne, fun hne => absurd hfree hne⟩
    · rw [h.slot_ne hdi]
      exact ⟨fun _ => hs, fun _ heq => hdi (hok.own _ _ hs hi (by rw [show (s.ledger.slot d.slot).alloc = d.alloc from ha, heq]; rfl))⟩
  · next hfree =>
    symm
    rw [List.filter_eq_self]
    intro d hd
    obtain ⟨-, hs⟩ := hstored d hd
    rw [decide_eq_true_iff, h.slot]
    split
    · exact hfree
    · exact hs

/-- Frames closed one after another from the oldest on: each slot of the list is closed or freed, the rest stands, and what remains agrees
with the rest of the open list. -/
theorem foldl_closes {base : State} {op : State → OpenFrame → State} {after : OpenFrame → Slot → Slot}
    (hop : ∀ u f, SameGates base u → (u.slot f.slot).state = .opened → Takes u (op u f) f.slot (after f (u.slot f.slot)))
    (hafter : Closing after) (fs gs : List OpenFrame) (s : State) (hbase : SameGates base s) (hok : s.ledger.Ok (fs ++ gs)) :
    (fs.foldl op s).ledger.Ok gs ∧ ListClosed after s (fs.foldl op s) fs := by
  induction fs generalizing s with
  | nil =>
    refine ⟨hok, fun f hf => (List.not_mem_nil hf).elim, fun _ _ => rfl, fun r => ?_, rfl, rfl, rfl, rfl, rfl⟩
    exact (List.filter_eq_self.mpr fun d hd => decide_eq_true (hok.stored r d.charge (List.mem_map_of_mem hd)).2).symm
  | cons f fs ih =>
    have hopen : (s.slot f.slot).state = .opened := (hok.opened f List.mem_cons_self).1
    have htakes := hop s f hbase hopen
    have hok' : (op s f).ledger.Ok (fs ++ gs) := by
      rcases hafter f (s.slot f.slot) with ⟨rows, reason, hx⟩ | hx
      · rw [hx] at htakes; exact htakes.closed_ok hok
      · rw [hx] at htakes; exact htakes.freed_ok hok
    obtain ⟨hgs, hclosed⟩ := ih (op s f) (hbase.trans htakes.gates) hok'
    have hnot : f.slot ∉ fs.map OpenFrame.slot := fun hmem => by
      have hhead : f.slot ∉ (fs ++ gs).map OpenFrame.slot := (List.nodup_cons.mp hok.distinct).1
      rw [List.map_append] at hhead
      exact hhead (List.mem_append_left _ hmem)
    have hhead : (fs.foldl op (op s f)).slot f.slot = after f (s.slot f.slot) := by
      rw [hclosed.others _ fun g hg hgf => hnot (by rw [← hgf]; exact List.mem_map_of_mem hg), htakes.slot_same]
    refine ⟨hgs, fun g hg => ?_, fun i hi => ?_, fun r => ?_, htakes.gates.trans hclosed.gates⟩
    · rcases List.mem_cons.mp hg with rfl | hg
      · exact hhead
      · rw [List.foldl_cons, hclosed.listed g hg, htakes.slot_ne fun hgf => hnot (by rw [← hgf]; exact List.mem_map_of_mem hg)]
    · rw [List.foldl_cons, hclosed.others i fun g hg => hi g (List.mem_cons_of_mem _ hg),
        htakes.slot_ne fun hif => hi f List.mem_cons_self hif.symm]
    · rw [List.foldl_cons, hclosed.records, htakes.records_eq hok (by rw [hopen]; decide), List.filter_filter]
      refine List.filter_congr fun d hd => ?_
      have hstays : ((fs.foldl op (op s f)).slot d.slot).state ≠ .free → ((op s f).slot d.slot).state ≠ .free := by
        intro hne hfree
        by_cases hmem : ∃ g ∈ fs, g.slot = d.slot
        · obtain ⟨g, hg, hgd⟩ := hmem
          have hgo : ((op s f).slot g.slot).state = .opened := (hok'.opened g (List.mem_append_left _ hg)).1
          rw [hgd, hfree] at hgo; cases hgo
        · rw [hclosed.others _ fun g hg hgd => hmem ⟨g, hg, hgd⟩] at hne
          exact hne hfree
      by_cases hne : ((fs.foldl op (op s f)).slot d.slot).state ≠ .free
      · simp [hne, hstays hne]
      · simp [hne]

end Sys2Proof.Machine

/-! # The tests that follow a change of lane progress (R76, R117) -/

namespace Sys2Proof.Machine

/-! ## The close test -/

theorem SameGates.fullClose (s : State) (f : OpenFrame) : SameGates s (s.fullClose f) := by
  simp [SameGates, State.fullClose]

/-- The close test takes the frames that pass from the oldest on, up to the first that fails. -/
theorem closePassing_eq (high : Int) (fs : List OpenFrame) (k : Nat) (s : State) (hpass : ∀ f ∈ fs.take k, s.passes high f = true)
    (hfail : ∀ f, fs[k]? = some f → ¬ s.passes high f = true) :
    closePassing high fs s = ((fs.take k).foldl State.fullClose s).withOpenList (fs.drop k) := by
  induction fs generalizing s k with
  | nil => rw [closePassing_nil]; simp
  | cons f fs ih =>
    rw [closePassing_cons]
    cases k with
    | zero => rw [if_neg (hfail f rfl)]; rfl
    | succ k =>
      have hgates (g : OpenFrame) := (SameGates.fullClose s f).passes high g
      rw [if_pos (hpass f (by simp)), ih k (s.fullClose f) (fun g hg => by rw [hgates]; exact hpass g (by simp [hg]))
        (fun g hg => by rw [hgates]; exact hfail g (by simpa using hg))]
      rfl

/-- A list of frames closed, and the open list that is left. -/
theorem ListClosed.withOpenList {after : OpenFrame → Slot → Slot} {s t : State} {fs : List OpenFrame} (h : ListClosed after s t fs)
    (gs : List OpenFrame) : ListClosed after s (t.withOpenList gs) fs :=
  ⟨h.listed, h.others, h.records, h.gates⟩

section CloseTest

variable {s : State} {high : Int} {k : Nat} (hpass : ∀ f ∈ s.frt.openList.take k, s.passes high f = true)
  (hfail : ∀ f, s.frt.openList[k]? = some f → ¬ s.passes high f = true)

include hpass hfail

theorem State.closeTest_openList : (s.closeTest high).frt.openList = s.frt.openList.drop k := by
  rw [State.closeTest, closePassing_eq high _ k s hpass hfail]; rfl

/-- While frames, slots and records agree the close test closes its frames and keeps the agreement. -/
theorem State.closeTest_closes (hok : s.framesOk) :
    (s.closeTest high).framesOk ∧ ListClosed OpenFrame.finished s (s.closeTest high) (s.frt.openList.take k) := by
  have hsplit : s.ledger.Ok (s.frt.openList.take k ++ s.frt.openList.drop k) := by
    rw [List.take_append_drop]; exact s.framesOk_iff.mp hok
  obtain ⟨hrest, hclosed⟩ := foldl_closes (base := s) (fun u f _ hopen => State.fullClose_takes hopen) OpenFrame.finished_closing
    _ _ s ⟨rfl, rfl, rfl, rfl, rfl⟩ hsplit
  rw [State.framesOk_iff, State.closeTest, closePassing_eq high _ k s hpass hfail]
  exact ⟨hrest, hclosed.withOpenList _⟩

end CloseTest

/-! ## What the tests leave -/

theorem State.freeSlot_records_sublist (s : State) (i : Nat) (r : Fin 8) :
    ((s.freeSlot i).dle.records.get r).Sublist (s.dle.records.get r) := by
  rw [State.freeSlot_records]; exact List.filter_sublist

theorem State.freeingTest_records_sublist (s : State) (i : Nat) (r : Fin 8) :
    ((s.freeingTest i).dle.records.get r).Sublist (s.dle.records.get r) := by
  rcases s.freeingTest_cases i with ⟨-, h⟩ | ⟨-, -, -, ⟨-, h⟩ | ⟨-, h⟩⟩ <;> rw [h]
  · simp
  · exact s.freeSlot_records_sublist i r

theorem State.closeSlot_records_sublist (s : State) (i rows : Nat) (reason : CloseReason) (r : Fin 8) :
    ((s.closeSlot i rows reason).dle.records.get r).Sublist (s.dle.records.get r) := by
  have h := State.freeingTest_records_sublist (s.setSlot i fun x => x.settled rows reason) i r
  rwa [(s.setSlot_frame i _).2.2.2.2.2.2.2.2.2.2.2.1] at h

theorem closePassing_records_sublist (high : Int) (fs : List OpenFrame) (s : State) (r : Fin 8) :
    ((closePassing high fs s).dle.records.get r).Sublist (s.dle.records.get r) := by
  induction fs generalizing s with
  | nil => exact List.Sublist.refl _
  | cons f fs ih =>
    rw [closePassing_cons]
    split
    · exact (ih _).trans (s.closeSlot_records_sublist _ _ _ r)
    · exact List.Sublist.refl _

theorem State.setSlot_length (s : State) (i : Nat) (f : Slot → Slot) : (s.setSlot i f).slm.slots.length = s.slm.slots.length := by
  simp [State.setSlot]

theorem State.freeSlot_length (s : State) (i : Nat) : (s.freeSlot i).slm.slots.length = s.slm.slots.length :=
  State.setSlot_length _ _ _

theorem State.freeingTest_length (s : State) (i : Nat) : (s.freeingTest i).slm.slots.length = s.slm.slots.length := by
  rcases s.freeingTest_cases i with ⟨-, h⟩ | ⟨-, -, -, ⟨-, h⟩ | ⟨-, h⟩⟩ <;> rw [h]
  · exact s.setSlot_length _ _
  · exact s.freeSlot_length i

theorem State.closeSlot_length (s : State) (i rows : Nat) (reason : CloseReason) :
    (s.closeSlot i rows reason).slm.slots.length = s.slm.slots.length :=
  (State.freeingTest_length _ _).trans (s.setSlot_length _ _)

theorem closePassing_length (high : Int) (fs : List OpenFrame) (s : State) :
    (closePassing high fs s).slm.slots.length = s.slm.slots.length := by
  induction fs generalizing s with
  | nil => rfl
  | cons f fs ih =>
    rw [closePassing_cons]
    split
    · exact (ih _).trans (s.closeSlot_length _ _ _)
    · rfl

/-- A close changes one slot at most, and that is OPEN no more. -/
theorem State.closeSlot_slot_cases (s : State) (i rows : Nat) (reason : CloseReason) (j : Nat) :
    (s.closeSlot i rows reason).slot j = s.slot j ∨ j = i ∧ ((s.closeSlot i rows reason).slot j).state ≠ .opened := by
  have hset := s.setSlot_slot_cases i j fun x => x.settled rows reason
  rw [State.closeSlot_eq]
  rcases State.freeingTest_cases (s.setSlot i fun x => x.settled rows reason) i with ⟨-, h⟩ | ⟨hc, -, -, ⟨-, h⟩ | ⟨-, h⟩⟩ <;> rw [h]
  · rcases hset with h' | ⟨hj, h'⟩
    · exact .inl h'
    · exact .inr ⟨hj, by rw [h']; exact SlotState.noConfusion⟩
  · rcases State.setSlot_slot_cases (s.setSlot i fun x => x.settled rows reason) i j _ with h2 | ⟨rfl, h2⟩
    · rw [h2]
      rcases hset with h' | ⟨hj, h'⟩
      · exact .inl h'
      · exact .inr ⟨hj, by rw [h']; exact SlotState.noConfusion⟩
    · exact .inr ⟨rfl, by rw [h2]; exact SlotState.noConfusion⟩
  · rw [State.freeSlot_slot]
    split
    · next hj => exact .inr ⟨hj, SlotState.noConfusion⟩
    · next hj =>
      rcases hset with h' | ⟨hj', -⟩
      · exact .inl h'
      · exact absurd hj' hj

theorem closePassing_slot_cases (high : Int) (fs : List OpenFrame) (s : State) (i : Nat) :
    (closePassing high fs s).slot i = s.slot i ∨ ((closePassing high fs s).slot i).state ≠ .opened := by
  induction fs generalizing s with
  | nil => exact .inl rfl
  | cons f fs ih =>
    rw [closePassing_cons]
    split
    · rcases ih (s.fullClose f) with h | h
      · rw [h]
        rcases s.closeSlot_slot_cases f.slot _ _ i with h' | ⟨-, h'⟩
        · exact .inl h'
        · exact .inr h'
      · exact .inr h
    · exact .inl rfl

/-! ## Readiness (R115, R117) -/

/-- A count of bands against a number of rows. -/
theorem lt_toNat_div_iff {h : Nat} (hh : 0 < h) (b : Nat) (n : Int) : b < n.toNat / h ↔ ((b + 1 : Nat) : Int) * (h : Int) ≤ n := by
  rw [Nat.lt_iff_add_one_le, Nat.le_div_iff_mul_le hh, ← Nat.cast_mul]
  have hpos : 0 < (b + 1) * h := Nat.mul_pos (Nat.succ_pos b) hh
  generalize (b + 1) * h = m at hpos
  omega

/-- The slowest contributing lane has reached a position when each has. -/
theorem least_contributing {xs : List GeoLane} {g : GeoLane → Int} (hne : xs ≠ []) :
    ∃ m, least (xs.map g) = some m ∧ ∀ p, (∀ y ∈ xs, p ≤ g y) ↔ p ≤ m := by
  obtain ⟨y, ys, rfl⟩ := List.exists_cons_of_ne_nil hne
  obtain ⟨m, hm, hleast, hle⟩ := least_spec (List.mem_map_of_mem (f := g) (List.mem_cons_self (a := y) (l := ys)))
  refine ⟨m, hleast, fun p => ⟨fun h => ?_, fun h w hw => h.trans (hle _ (List.mem_map_of_mem hw))⟩⟩
  obtain ⟨z, hz, rfl⟩ := List.mem_map.mp hm
  exact h z hz

/-- A band is among those finished when R117 lets it count. -/
theorem State.lt_bandsFinished_iff (s : State) (x : Slot) (side : Side) (col b : Nat) (hHt : 0 < x.geometry.tileHeight) :
    b < s.bandsFinished x side col ↔ s.bandFinished x side col b := by
  unfold State.bandFinished State.bandsFinished
  dsimp only
  by_cases hne : x.geometry.contributing side col = []
  · rw [hne]; simp [least]
  · obtain ⟨m, hleast, hall⟩ := least_contributing (g := fun y => s.effective s.ptk.high y.lane) hne
    rw [hleast, hall]
    dsimp only
    have hrows (n : Int) := lt_toNat_div_iff hHt b n
    generalize ((b + 1 : Nat) : Int) * (x.geometry.tileHeight : Int) = rows at hrows ⊢
    cases x.stop with
    | none =>
      rw [hrows]
      simp only [ne_eq, hne, not_false_eq_true, true_and, reduceCtorEq, false_imp_iff, implies_true, and_true]
      omega
    | some e =>
      rw [lt_min_iff, hrows, hrows]
      simp only [ne_eq, hne, not_false_eq_true, true_and, Option.some.injEq, forall_eq']
      omega

theorem State.raisedCounts_length (s : State) (x : Slot) (side : Side) (counts : List Nat) :
    (s.raisedCounts x side counts).length = counts.length := by
  simp [State.raisedCounts]

theorem State.raisedCounts_getD (s : State) (x : Slot) (side : Side) {counts : List Nat} {col : Nat} (h : col < counts.length) :
    (s.raisedCounts x side counts).getD col 0 = max (counts.getD col 0) (s.bandsFinished x side col) := by
  simp [State.raisedCounts, List.getD_eq_getElem?_getD, h]

/-- An OPEN slot after the readiness test, column by column. -/
theorem State.readySlot_count (s : State) {x : Slot} (hx : x.state = .opened) (side : Side) {col : Nat}
    (h : col < (x.ready.counts side).length) :
    (s.readySlot x).ready.count side col = max (x.ready.count side col) (s.bandsFinished x side col) := by
  unfold State.readySlot
  rw [if_pos hx]
  cases side with
  | top => exact s.raisedCounts_getD x .top h
  | bottom => exact s.raisedCounts_getD x .bottom h

theorem State.readySlot_eq (s : State) (x : Slot) : s.readySlot x = { x with ready := (s.readySlot x).ready } := by
  unfold State.readySlot
  split <;> rfl

theorem State.readySlot_of_not_opened (s : State) {x : Slot} (h : x.state ≠ .opened) : s.readySlot x = x := if_neg h

theorem State.closeTest_gates (s : State) (high : Int) : SameGates s (s.closeTest high) := by
  obtain ⟨k, h⟩ := closePassing_openList high s.frt.openList s
  have hframe := s.closeTest_frame high
  refine ⟨by simp, by simp, by simp, ?_, by simp⟩
  rw [State.closeTest, h]

theorem State.progressed_slot (s : State) (i : Nat) :
    s.progressed.slot i = (s.closeTest s.ptk.high).readySlot ((s.closeTest s.ptk.high).slot i) := State.readinessTest_slot _ i

/-- A slot still OPEN after the tests is the one it was but for what the readiness test raised. -/
theorem State.progressed_slot_opened {s : State} {i : Nat} (h : (s.progressed.slot i).state = .opened) :
    (s.slot i).state = .opened ∧ s.progressed.slot i = (s.closeTest s.ptk.high).readySlot (s.slot i) := by
  have hstate : ((s.closeTest s.ptk.high).slot i).state = .opened := by
    rw [State.progressed_slot, State.readySlot_eq] at h
    exact h
  have hslot : (s.closeTest s.ptk.high).slot i = s.slot i :=
    (closePassing_slot_cases s.ptk.high s.frt.openList s i).resolve_right (not_not.mpr hstate)
  exact ⟨hslot ▸ hstate, by rw [State.progressed_slot, hslot]⟩

theorem SameGates.bandFinished {s t : State} (h : SameGates s t) (x : Slot) (side : Side) (col b : Nat) :
    t.bandFinished x side col b ↔ s.bandFinished x side col b := by
  unfold State.bandFinished
  simp only [h.effective, h.2.2.2.2]

/-- While frames, slots and records agree, the tests close the frames that pass and keep the rest but for readiness. -/
theorem State.progressed_closes {s : State} {k : Nat} (hok : s.framesOk) (hpass : ∀ f ∈ s.frt.openList.take k, s.passes s.ptk.high f = true)
    (hfail : ∀ f, s.frt.openList[k]? = some f → ¬ s.passes s.ptk.high f = true) :
    (∀ f ∈ s.frt.openList.take k, s.progressed.slot f.slot = f.finished (s.slot f.slot))
      ∧ (∀ i, (∀ f ∈ s.frt.openList.take k, f.slot ≠ i) → s.progressed.slot i = (s.closeTest s.ptk.high).readySlot (s.slot i))
      ∧ ∀ r, s.progressed.dle.records.get r = (s.dle.records.get r).filter fun d => (s.progressed.slot d.slot).state ≠ .free := by
  obtain ⟨-, hclosed⟩ := State.closeTest_closes hpass hfail hok
  have hstate (i : Nat) : (s.progressed.slot i).state = ((s.closeTest s.ptk.high).slot i).state := by
    rw [State.progressed_slot, State.readySlot_eq]
  refine ⟨fun f hf => ?_, fun i hi => ?_, fun r => ?_⟩
  · rw [State.progressed_slot, hclosed.listed f hf, State.readySlot_of_not_opened _ (OpenFrame.finished_closing.not_opened f _)]
  · rw [State.progressed_slot, hclosed.others i hi]
  · simp only [hstate]
    exact hclosed.records r

/-- Settles O4: the frame of the tests; readiness, band by band; and the close test over frames that agree. -/
theorem progressTestsLeaveTheRest : Obligations.ProgressTestsLeaveTheRest := by
  refine ⟨fun s => ?_, fun s i hi => ?_, fun s k hok hpass hfail => ?_⟩
  · obtain ⟨k, hfrt⟩ := s.progressed_openList
    refine ⟨by simp, by simp, by simp, by simp, by rw [hfrt], by rw [hfrt]; exact List.drop_suffix _ _, by simp, by simp, by simp, ?_,
      by simp, by simp, by simp, fun r => closePassing_records_sublist _ _ s r, by simp, by simp, by simp, by simp, by simp, by simp⟩
    rw [State.progressed, State.readinessTest, List.length_map]
    exact closePassing_length _ _ s
  · obtain ⟨hopen, hslot⟩ := State.progressed_slot_opened hi
    have hgates := s.closeTest_gates s.ptk.high
    have hready : (s.progressed.slot i).ready = { (s.slot i).ready with
        top := (s.closeTest s.ptk.high).raisedCounts (s.slot i) .top (s.slot i).ready.top,
        bottom := (s.closeTest s.ptk.high).raisedCounts (s.slot i) .bottom (s.slot i).ready.bottom } := by
      rw [hslot, State.readySlot, if_pos hopen]
    refine ⟨by rw [hslot]; exact State.readySlot_eq _ _, by rw [hready], by rw [hready, State.raisedCounts_length],
      by rw [hready, State.raisedCounts_length], fun side col hHt hcol => ?_⟩
    have hcount : (s.progressed.slot i).ready.count side col
        = max ((s.slot i).ready.count side col) ((s.closeTest s.ptk.high).bandsFinished (s.slot i) side col) := by
      rw [hslot]; exact State.readySlot_count _ hopen side hcol
    have hfinished (b : Nat) : b < (s.closeTest s.ptk.high).bandsFinished (s.slot i) side col ↔ s.bandFinished (s.slot i) side col b :=
      (State.lt_bandsFinished_iff _ _ _ _ _ hHt).trans (hgates.bandFinished _ _ _ _)
    rw [hcount]
    refine ⟨le_max_left _ _, fun b hb hlt => (hfinished b).mp ?_, fun h => ?_⟩
    · rcases lt_max_iff.mp hlt with h | h
      · exact absurd h (Nat.not_lt.mpr hb)
      · exact h
    · exact absurd ((hfinished _).mpr h) (Nat.not_lt.mpr (le_max_right _ _))
  · have hpass' : ∀ f ∈ s.frt.openList.take k, s.passes s.ptk.high f = true := fun f hf => (s.passes_iff _ f).mpr (hpass f hf)
    have hfail' : ∀ f, s.frt.openList[k]? = some f → ¬ s.passes s.ptk.high f = true := fun f hf h => hfail f hf ((s.passes_iff _ f).mp h)
    obtain ⟨hlisted, hothers, hrecords⟩ := State.progressed_closes hok hpass' hfail'
    refine ⟨?_, fun f hf e he => ?_, fun i hi => ?_, hrecords⟩
    · have := State.closeTest_openList hpass' hfail'
      simpa [State.progressed] using this
    · rw [hlisted f hf, OpenFrame.finished, he]; rfl
    · rw [hothers i hi]
      exact ⟨State.readySlot_eq _ _, fun hne => State.readySlot_of_not_opened _ hne⟩

end Sys2Proof.Machine

/-! # Short closes counted, stalls, and the close at stop (R12, R14, R77, R78, R82) -/

namespace Sys2Proof.Machine

/-! ## Counting short closes (R77) -/

theorem countUp_eq_min (n c : Nat) : countUp n c = min 4294967295 (c + n) := rfl

section Counting

variable {s t u : State}

theorem State.countsShorts_nil (hframes : t.ntu.counters.frames = s.ntu.counters.frames) (hpending : t.ntu.pending = s.ntu.pending) :
    s.countsShorts t [] := by
  simp [State.countsShorts, hframes, hpending]

/-- A counter moved up by one number and then by another, each time unless the number is 0. -/
theorem countUp_twice (c m n : Nat) :
    (if n = 0 then (if m = 0 then c else min 4294967295 (c + m)) else min 4294967295 ((if m = 0 then c else min 4294967295 (c + m)) + n))
      = if m + n = 0 then c else min 4294967295 (c + (m + n)) := by
  split_ifs <;> omega

theorem State.countsShorts_append {rows rows' : List Int} (h : s.countsShorts t rows) (h' : t.countsShorts u rows') :
    s.countsShorts u (rows ++ rows') := by
  obtain ⟨hframes, hshort, hdropped⟩ := h
  obtain ⟨hframes', hshort', hdropped'⟩ := h'
  refine ⟨?_, ?_, ?_⟩
  · rw [hframes', hframes]
    simp only [countUp_twice, List.countP_append]
  · rw [hshort', hshort, List.countP_append, Bool.or_assoc]
    congr 1
    rw [Bool.eq_iff_iff]
    simp only [Bool.or_eq_true, decide_eq_true_eq]
    omega
  · rw [hdropped', hdropped, List.countP_append, Bool.or_assoc]
    congr 1
    rw [Bool.eq_iff_iff]
    simp only [Bool.or_eq_true, decide_eq_true_eq]
    omega

/-- Frames closed one after another, each counted by its own rows, are counted together. -/
theorem foldl_countsShorts {base : State} {op : State → OpenFrame → State} {rows : OpenFrame → List Int}
    (hop : ∀ u f, SameGates base u → u.countsShorts (op u f) (rows f)) (hgates : ∀ u f, SameGates u (op u f)) (fs : List OpenFrame)
    (s : State) (hbase : SameGates base s) : s.countsShorts (fs.foldl op s) (fs.flatMap rows) := by
  induction fs generalizing s with
  | nil => exact State.countsShorts_nil rfl rfl
  | cons f fs ih =>
    rw [List.flatMap_cons]
    exact State.countsShorts_append (hop s f hbase) (ih _ (hbase.trans (hgates s f)))

end Counting

theorem State.closeSlot_counts (s : State) (i rows : Nat) (reason : CloseReason) : s.countsShorts (s.closeSlot i rows reason) [] :=
  State.countsShorts_nil (by simp) (by simp)

theorem State.shortClose_counts (s : State) (high : Int) (reason : CloseReason) (f : OpenFrame) :
    s.countsShorts (s.shortClose high reason f) [s.shortRows high f] := by
  have hpending (x : Source) := s.shortClose_pending high reason f x
  by_cases h : 1 ≤ s.shortRows high f
  · have hempty : ¬ s.shortRows high f < 1 := by omega
    have hframes : (s.shortClose high reason f).ntu.counters.frames
        = { s.ntu.counters.frames with short := countUp 1 s.ntu.counters.frames.short } := by
      unfold State.shortClose
      dsimp only
      rw [if_pos h]
      simp [State.countFrames]
    refine ⟨?_, ?_, ?_⟩
    · rw [hframes]; simp [h, hempty, countUp_eq_min]
    · rw [hpending]; simp [h]
    · rw [hpending]; simp [h, hempty]
  · have hempty : s.shortRows high f < 1 := by omega
    have hframes : (s.shortClose high reason f).ntu.counters.frames
        = { s.ntu.counters.frames with droppedEmpty := countUp 1 s.ntu.counters.frames.droppedEmpty } := by
      unfold State.shortClose
      dsimp only
      rw [if_neg h]
      simp [State.countFrames]
    refine ⟨?_, ?_, ?_⟩
    · rw [hframes]; simp [h, hempty, countUp_eq_min]
    · rw [hpending]; simp [h]
    · rw [hpending]; simp [h, hempty]

theorem SameGates.shortClose (s : State) (high : Int) (reason : CloseReason) (f : OpenFrame) :
    SameGates s (s.shortClose high reason f) := by
  simp [SameGates]

/-- Short closes of the open list, counted. -/
theorem State.shortCloseAll_counts (s : State) (high : Int) (reason : CloseReason) :
    s.countsShorts (s.shortCloseAll high reason) (s.frt.openList.flatMap fun f => [s.shortRows high f]) :=
  foldl_countsShorts (base := s) (fun u f hu => by rw [← hu.shortRows]; exact u.shortClose_counts high reason f)
    (fun u f => .shortClose u high reason f) s.frt.openList s ⟨rfl, rfl, rfl, rfl, rfl⟩

/-- What the close at stop counts of one frame. -/
def State.stopRows (s : State) (f : OpenFrame) : List Int := if s.passes s.ptk.high f then [] else [s.shortRows s.ptk.high f]

theorem State.stopClose_counts (s : State) (f : OpenFrame) : s.countsShorts (s.stopClose f) (s.stopRows f) := by
  rw [State.stopClose_eq]
  unfold State.stopRows
  split
  · exact s.closeSlot_counts _ _ _
  · exact s.shortClose_counts _ _ _

theorem SameGates.stopClose (s : State) (f : OpenFrame) : SameGates s (s.stopClose f) := by
  rw [State.stopClose_eq]
  split
  · exact .fullClose s f
  · exact .shortClose s _ _ f

theorem State.stopCloseAll_counts (s : State) : s.countsShorts s.stopCloseAll (s.frt.openList.flatMap s.stopRows) := by
  have hrows {u : State} (h : SameGates s u) (f : OpenFrame) : u.stopRows f = s.stopRows f := by
    unfold State.stopRows
    rw [h.2.2.2.2, h.passes, h.shortRows]
  exact foldl_countsShorts (base := s) (fun u f hu => by rw [← hrows hu]; exact u.stopClose_counts f)
    (fun u f => .stopClose u f) s.frt.openList s ⟨rfl, rfl, rfl, rfl, rfl⟩

/-- The rows a list of frames is given by R77 are those the model counts. -/
theorem flatMap_shortRows {s : State} {high : Int} {fs : List OpenFrame} {rows : List Int}
    (h : List.Forall₂ (s.isShortRows high) fs rows) : (fs.flatMap fun f => [s.shortRows high f]) = rows := by
  induction h with
  | nil => rfl
  | cons hf _ ih => rw [List.flatMap_cons, ih, State.shortRows_eq hf]; rfl

/-! ## Closing the open list -/

/-- While frames, slots and records agree, short closes empty the open list. -/
theorem State.shortCloseAll_closes {s : State} (hok : s.framesOk) (high : Int) (reason : CloseReason) :
    (s.shortCloseAll high reason).framesOk
      ∧ ListClosed (s.shortened high reason) s (s.shortCloseAll high reason) s.frt.openList := by
  have hop (u : State) (f : OpenFrame) (hu : SameGates s u) (hopen : (u.slot f.slot).state = .opened) :
      Takes u (u.shortClose high reason f) f.slot (s.shortened high reason f (u.slot f.slot)) := by
    have h := State.shortClose_takes hopen high reason
    unfold State.shortened at h ⊢
    rwa [hu.shortRows] at h
  obtain ⟨hrest, hclosed⟩ := foldl_closes hop (s.shortened_closing high reason) s.frt.openList [] s ⟨rfl, rfl, rfl, rfl, rfl⟩
    (by rw [List.append_nil]; exact s.framesOk_iff.mp hok)
  exact ⟨(State.framesOk_iff _).mpr hrest, hclosed.listed, hclosed.others, hclosed.records, hclosed.gates⟩

/-- While frames, slots and records agree, the close at stop empties the open list. -/
theorem State.stopCloseAll_closes {s : State} (hok : s.framesOk) :
    s.stopCloseAll.framesOk ∧ (∀ f ∈ s.frt.openList, s.stopCloseAll.slot f.slot = s.endedAtStop f (s.slot f.slot))
      ∧ (∀ i, (∀ f ∈ s.frt.openList, f.slot ≠ i) → s.stopCloseAll.slot i = s.slot i)
      ∧ ∀ r, s.stopCloseAll.dle.records.get r = (s.dle.records.get r).filter fun d => (s.stopCloseAll.slot d.slot).state ≠ .free := by
  have hop (u : State) (f : OpenFrame) (hu : SameGates s u) (hopen : (u.slot f.slot).state = .opened) :
      Takes u (u.stopClose f) f.slot (s.endedAtStop f (u.slot f.slot)) := by
    have h := State.stopClose_takes hopen
    unfold State.endedAtStop State.shortened at h ⊢
    rwa [hu.2.2.2.2, hu.passes, hu.shortRows] at h
  obtain ⟨hrest, hclosed⟩ := foldl_closes hop s.endedAtStop_closing s.frt.openList [] s ⟨rfl, rfl, rfl, rfl, rfl⟩
    (by rw [List.append_nil]; exact s.framesOk_iff.mp hok)
  exact ⟨(State.framesOk_iff _).mpr hrest, hclosed.listed, hclosed.others, hclosed.records⟩

/-! ## Through what follows -/

/-- From one state to another the slots are the same, and the delivery records but for what is fixed as a packet begins. -/
structure SlotsStand (t u : State) : Prop where
  slot : ∀ i, u.slot i = t.slot i
  records : ∀ r, (u.dle.records.get r).map Delivery.core = (t.dle.records.get r).map Delivery.core

theorem SlotsStand.settle (t : State) (lead : Bool) : SlotsStand t (t.settle lead) where
  slot i := by simp [State.slot]
  records := ((State.backlog_eq_iff _ _).mp (t.settle_backlog lead)).1.2.2.1

section Listed

variable {s t u : State} {after : OpenFrame → Slot → Slot} {fs : List OpenFrame}

theorem ListClosed.onlyCloses (h : ListClosed after s t fs) (hu : SlotsStand t u) : s.onlyCloses u fs := by
  refine ⟨fun i hi => ?_, fun r => ?_⟩
  · rw [hu.slot, h.others i hi]; exact ⟨rfl, fun _ => rfl⟩
  · rw [hu.records, h.records]; simp only [hu.slot]

theorem ListClosed.shortCloses {base : State} {high : Int} {reason : CloseReason} {f : OpenFrame}
    (h : ListClosed (base.shortened high reason) s t fs) (hu : SlotsStand t u) (hf : f ∈ fs) {r : Int} (hr : base.isShortRows high f r) :
    (1 ≤ r → u.slot f.slot = (s.slot f.slot).closedAs r.toNat reason) ∧ (r ≤ 0 → u.slot f.slot = Slot.empty) := by
  rw [hu.slot, h.listed f hf, State.shortened, State.shortRows_eq hr]
  exact ⟨fun h1 => if_pos h1, fun h0 => if_neg (by omega)⟩

end Listed

/-! ## Stalls (R12, R14, R78) -/

theorem exec_stall {s : State} {u : Nat} (h : s.pwrOk = true) (hm : s.ptk.motion = .moving) (hu : s.ptk.stallTimer = some u) :
    exec .stall s = .next (((s.advanceTo (u + s.ptk.scale.stallMs * 100000)).enterStalled).settle false) := by
  have harm : exec .stall s = execStall s := rfl
  rw [harm, execStall, State.whenPowered_high _ _ h, hm, hu]
  rfl

theorem exec_stall_stands {s : State} (h : s.pwrOk = true) (hs : s.ptk.motion = .stalled ∨ s.ptk.stallTimer = none) :
    exec .stall s = .next s := by
  have harm : exec .stall s = execStall s := rfl
  rw [harm, execStall, State.whenPowered_high _ _ h]
  rcases hs with hs | hs
  · rw [hs]
  · rw [hs]; cases s.ptk.motion <;> rfl

theorem exec_stallCloseExpiry {s : State} {u : Nat} (h : s.pwrOk = true) (hm : s.ptk.motion = .stalled)
    (hu : s.ptk.stallCloseTimer = some u) :
    exec .stallCloseExpiry s
      = .next ((if s.rnc.runState = .config then s.stallCloseOver u else (s.stallCloseOver u).stallClose).settle false) := by
  have harm : exec .stallCloseExpiry s = execStallCloseExpiry s := rfl
  rw [harm, execStallCloseExpiry, State.whenPowered_high _ _ h, hm, hu]
  rfl

theorem exec_stallCloseExpiry_stands {s : State} (h : s.pwrOk = true) (hs : s.ptk.motion = .moving ∨ s.ptk.stallCloseTimer = none) :
    exec .stallCloseExpiry s = .next s := by
  have harm : exec .stallCloseExpiry s = execStallCloseExpiry s := rfl
  rw [harm, execStallCloseExpiry, State.whenPowered_high _ _ h]
  rcases hs with hs | hs
  · rw [hs]
  · rw [hs]; cases s.ptk.motion <;> rfl

theorem State.stallClose_idle {s : State} (h : s.frt.state = .seeking ∧ s.frt.openList = []) : s.stallClose = s := if_pos h

theorem State.shortCloseAll_frt (s : State) (high : Int) (reason : CloseReason) :
    (s.shortCloseAll high reason).frt = { s.frt with openList := [] } := by
  have hfrt := foldl_keeps State.frt (fun s f => s.shortClose high reason f) (fun s f => by simp) s.frt.openList s
  unfold State.shortCloseAll
  dsimp only
  rw [hfrt]

/-- A stall-close request with something to do: the open list short-closed, and framing SEEKING. -/
theorem State.stallClose_eq {s : State} (h : ¬ (s.frt.state = .seeking ∧ s.frt.openList = [])) :
    s.stallClose = { s.shortCloseAll s.ptk.high .shortStall with
      frt := { s.frt with openList := [], state := .seeking, lastBoundary := none } } := by
  have hfrt : (s.shortCloseAll s.ptk.high .shortStall).frt.seek
      = { s.frt with openList := [], state := .seeking, lastBoundary := none } := by rw [State.shortCloseAll_frt]; rfl
  rw [← hfrt]
  exact if_neg h

theorem State.stallClose_frt {s : State} (h : ¬ (s.frt.state = .seeking ∧ s.frt.openList = [])) :
    s.stallClose.frt = { s.frt with openList := [], state := .seeking, lastBoundary := none } := by
  rw [State.stallClose_eq h]

theorem State.stallClose_counts {s : State} (h : ¬ (s.frt.state = .seeking ∧ s.frt.openList = [])) :
    s.countsShorts s.stallClose (s.frt.openList.flatMap fun f => [s.shortRows s.ptk.high f]) := by
  rw [State.stallClose_eq h]
  exact s.shortCloseAll_counts s.ptk.high .shortStall

/-- The stall close of frames that agree. -/
theorem State.stallClose_closes {s : State} (h : ¬ (s.frt.state = .seeking ∧ s.frt.openList = [])) (hok : s.framesOk) :
    s.stallClose.framesOk ∧ ListClosed (s.shortened s.ptk.high .shortStall) s s.stallClose s.frt.openList := by
  obtain ⟨hrest, hclosed⟩ := State.shortCloseAll_closes hok s.ptk.high .shortStall
  rw [State.stallClose_eq h]
  have hopen : (s.shortCloseAll s.ptk.high .shortStall).frt.openList = [] := rfl
  rw [State.framesOk_iff, hopen] at hrest
  obtain ⟨hlanes, htru, hrnc, -, hptk⟩ := hclosed.gates
  exact ⟨(State.framesOk_iff _).mpr hrest, hclosed.listed, hclosed.others, hclosed.records, hlanes, htru, hrnc, rfl, hptk⟩

/-- What the expiry of the stall-close timer makes: in a run, a stall-close request (R14, R78). -/
def State.afterStallClose (s : State) (u : Nat) : State :=
  if s.rnc.runState = .config then s.stallCloseOver u else (s.stallCloseOver u).stallClose

theorem State.afterStallClose_frame (s : State) (u : Nat) :
    (s.afterStallClose u).now = max s.now (u + s.ptk.scale.stallCloseS * 100000000)
      ∧ (s.afterStallClose u).ptk = { s.ptk with stallCloseTimer := none } ∧ (s.afterStallClose u).tru = s.tru
      ∧ (s.afterStallClose u).lanes = s.lanes ∧ (s.afterStallClose u).layout = s.layout ∧ (s.afterStallClose u).rnc = s.rnc
      ∧ (s.afterStallClose u).slm.store = s.slm.store := by
  have hnow : (s.stallCloseOver u).now = max s.now (u + s.ptk.scale.stallCloseS * 100000000) := rfl
  unfold State.afterStallClose
  split
  · exact ⟨hnow, rfl, rfl, rfl, rfl, rfl, rfl⟩
  · simp only [State.stallClose_frame]
    exact ⟨hnow, rfl, rfl, rfl, rfl, rfl, rfl⟩

/-- A count of short closes turns on the notices and counters alone. -/
theorem State.countsShorts_of_ntu {s s' t u : State} {rows : List Int} (h : s.countsShorts t rows) (hs : s'.ntu = s.ntu)
    (ht : u.ntu = t.ntu) : s'.countsShorts u rows := by
  unfold State.countsShorts at h ⊢
  rw [hs, ht]
  exact h

/-- Settles O35: the two timers, and the stall close through the ports' choices. -/
theorem stallsStopTheWebAndCloseFrames : Obligations.StallsStopTheWebAndCloseFrames := by
  intro s hs
  refine ⟨fun u hm hu => ⟨_, exec_stall hs hm hu, ?_⟩, exec_stall_stands hs,
    fun u hm hu => ⟨(s.afterStallClose u).settle false, exec_stallCloseExpiry hs hm hu, ?_⟩, exec_stallCloseExpiry_stands hs⟩
  · have hdle : (s.advanceTo (u + s.ptk.scale.stallMs * 100000)).enterStalled.dle = s.dle := by simp [State.enterStalled]
    refine ⟨?_, ?_, ?_, ?_, ?_, ?_, ?_, ?_, ?_, ?_, State.sameDelivery_settle (State.sameDelivery_of_dle hdle) false⟩
    all_goals simp only [State.settle_frame, State.enterStalled, State.raise_frame, State.raise_pending, State.advanceTo_frame]
    · rfl
    · rfl
    · simp
  · obtain ⟨hnow, hptk, htru, hlanes, hlayout, hrnc, hstore⟩ := s.afterStallClose_frame u
    simp only [State.settle_frame]
    refine ⟨hnow, hptk, htru, hlanes, hlayout, hrnc, hstore, fun hidle => ?_, fun hc hopen => ?_⟩
    · have hsame : s.afterStallClose u = s.stallCloseOver u := by
        unfold State.afterStallClose
        split
        · rfl
        · next hc => exact State.stallClose_idle (hidle.resolve_left hc)
      have hdle : (s.stallCloseOver u).dle = s.dle := rfl
      rw [hsame]
      exact ⟨rfl, rfl, rfl, State.sameDelivery_settle (State.sameDelivery_of_dle hdle) false⟩
    · have hopen' : ¬ ((s.stallCloseOver u).frt.state = .seeking ∧ (s.stallCloseOver u).frt.openList = []) := hopen
      have hclose : s.afterStallClose u = (s.stallCloseOver u).stallClose := if_neg hc
      have hstand := SlotsStand.settle (s.stallCloseOver u).stallClose false
      rw [hclose]
      refine ⟨State.stallClose_frt hopen', fun rows hrows => ?_, fun hok => ?_⟩
      · have hcounts := State.stallClose_counts hopen'
        rw [show ((s.stallCloseOver u).frt.openList.flatMap fun f => [(s.stallCloseOver u).shortRows (s.stallCloseOver u).ptk.high f])
          = rows from flatMap_shortRows hrows] at hcounts
        exact State.countsShorts_of_ntu hcounts rfl (by simp)
      · have hok' : (s.stallCloseOver u).framesOk := State.framesOk_of_book (State.book_of_same rfl rfl rfl rfl rfl) hok
        obtain ⟨-, hclosed⟩ := State.stallClose_closes hopen' hok'
        exact ⟨fun f hf r hr => hclosed.shortCloses hstand hf hr, hclosed.onlyCloses hstand⟩

end Sys2Proof.Machine

/-! # The close at stop (R82, R175) -/

namespace Sys2Proof.Machine

theorem State.closeSlot_same_state (s : State) (i rows : Nat) (reason : CloseReason) :
    ((s.closeSlot i rows reason).slot i).state ≠ .opened := by
  rcases s.closeSlot_slot_cases i rows reason i with h | ⟨-, h⟩
  · by_cases hlt : i < s.slm.slots.length
    · intro hopen
      have hset : ((s.setSlot i fun x => x.settled rows reason).slot i).state = .closed := by
        rw [State.setSlot_slot _ _ _ _ hlt, if_pos rfl]; rfl
      rw [State.closeSlot_eq] at hopen
      rcases State.freeingTest_cases (s.setSlot i fun x => x.settled rows reason) i with ⟨-, h'⟩ | ⟨-, -, -, ⟨-, h'⟩ | ⟨-, h'⟩⟩
      · rw [h', hset] at hopen; cases hopen
      · rw [h', State.setSlot_slot_of_ne_free _ (by rw [hset]; decide), if_pos rfl] at hopen; cases hopen
      · rw [h', State.freeSlot_slot, if_pos rfl] at hopen; cases hopen
    · rw [h, s.slot_of_le (Nat.not_lt.mp hlt)]; decide
  · exact h

theorem State.shortClose_slm (s : State) (high : Int) (reason : CloseReason) (f : OpenFrame) :
    (s.shortClose high reason f).slm
      = (if 1 ≤ s.shortRows high f then s.closeSlot f.slot (s.shortRows high f).toNat reason else s.freeSlot f.slot).slm := by
  unfold State.shortClose
  dsimp only
  split <;> simp

/-- The close at stop of one frame leaves its slot OPEN no more, and opens no slot. -/
theorem State.stopClose_not_opened (s : State) (f : OpenFrame) (j : Nat) (h : j = f.slot ∨ (s.slot j).state ≠ .opened) :
    ((s.stopClose f).slot j).state ≠ .opened := by
  have hclose (rows : Nat) (reason : CloseReason) : ((s.closeSlot f.slot rows reason).slot j).state ≠ .opened := by
    rcases h with rfl | h
    · exact s.closeSlot_same_state _ _ _
    · rcases s.closeSlot_slot_cases f.slot rows reason j with h' | ⟨-, h'⟩
      · rw [h']; exact h
      · exact h'
  have hfree : ((s.freeSlot f.slot).slot j).state ≠ .opened := by
    rw [State.freeSlot_slot]
    split
    · decide
    · next hne => exact h.resolve_left hne
  rw [State.stopClose_eq]
  split
  · exact hclose _ _
  · have hslm := s.shortClose_slm s.ptk.high .shortStop f
    rw [State.slot, hslm]
    split
    · exact hclose _ _
    · exact hfree

/-- With every frame of a list closed at stop none of their slots is OPEN. -/
theorem foldl_stopClose_not_opened (fs : List OpenFrame) (s : State) (j : Nat)
    (h : (∃ f ∈ fs, f.slot = j) ∨ (s.slot j).state ≠ .opened) : ((fs.foldl State.stopClose s).slot j).state ≠ .opened := by
  induction fs generalizing s with
  | nil => exact h.resolve_left (by simp)
  | cons f fs ih =>
    refine ih (s.stopClose f) ?_
    by_cases hmem : ∃ g ∈ fs, g.slot = j
    · exact .inl hmem
    · refine .inr (s.stopClose_not_opened f j ?_)
      rcases h with ⟨g, hg, hgj⟩ | h
      · rcases List.mem_cons.mp hg with rfl | hg
        · exact .inl hgj.symm
        · exact absurd ⟨g, hg, hgj⟩ hmem
      · exact .inr h

theorem State.stopClose_frt (s : State) (f : OpenFrame) : (s.stopClose f).frt = s.frt := by
  rw [State.stopClose_eq]
  split <;> simp [State.fullClose]

theorem State.stopCloseAll_frt (s : State) : s.stopCloseAll.frt = { s.frt with openList := [], state := .seeking } := by
  have hfrt := foldl_keeps State.frt State.stopClose State.stopClose_frt s.frt.openList s
  unfold State.stopCloseAll
  dsimp only
  rw [hfrt]

theorem State.stopCloseAll_rnc (s : State) : s.stopCloseAll.rnc = { s.rnc with closeAtStopMade := true } := by
  have hrnc := foldl_keeps State.rnc State.stopClose (fun u f => (SameGates.stopClose u f).2.2.1) s.frt.openList s
  unfold State.stopCloseAll
  dsimp only
  rw [hrnc]

/-- With nothing open the close at stop touches no slot, record or counter. -/
theorem State.stopCloseAll_nothing {s : State} (h : s.frt.openList = []) :
    s.stopCloseAll.slm = s.slm ∧ s.stopCloseAll.ntu = s.ntu ∧ s.stopCloseAll.dle = s.dle := by
  unfold State.stopCloseAll
  rw [h]
  exact ⟨rfl, rfl, rfl⟩

theorem exec_closeAtStop {s : State} (h : s.pwrOk = true) (hc : s.rnc.runState = .draining ∧ s.frt.triggersEnded = true
    ∧ s.lanesSettled ∧ s.rnc.closeAtStopMade = false) : exec .closeAtStop s = .next (s.stopCloseAll.settle false) := by
  have harm : exec .closeAtStop s = execCloseAtStop s := rfl
  rw [harm, execCloseAtStop, State.whenPowered_high _ _ h,
    if_pos ⟨hc.1, hc.2.1, s.allSettled_iff.mpr hc.2.2.1, by simp [hc.2.2.2]⟩]

theorem exec_closeAtStop_stands {s : State} (h : s.pwrOk = true) (hc : ¬ (s.rnc.runState = .draining ∧ s.frt.triggersEnded = true
    ∧ s.lanesSettled ∧ s.rnc.closeAtStopMade = false)) : exec .closeAtStop s = .next s := by
  have harm : exec .closeAtStop s = execCloseAtStop s := rfl
  rw [harm, execCloseAtStop, State.whenPowered_high _ _ h, if_neg]
  rintro ⟨hd, ht, hs, hm⟩
  exact hc ⟨hd, ht, s.allSettled_iff.mp hs, by simpa using hm⟩

/-- The row counts of frames that the close at stop closes short are those the model counts. -/
theorem flatMap_stopRows {s : State} {fs : List OpenFrame} {ends : List (Option Int)}
    (h : List.Forall₂ (fun f e => e = none ∧ s.passesClose s.ptk.high f
      ∨ ∃ r, e = some r ∧ ¬ s.passesClose s.ptk.high f ∧ s.isShortRows s.ptk.high f r) fs ends) :
    fs.flatMap s.stopRows = ends.filterMap id := by
  induction h with
  | nil => rfl
  | @cons f e fs ends hf _ ih =>
    rw [List.flatMap_cons, ih]
    rcases hf with ⟨rfl, hpass⟩ | ⟨r, rfl, hfail, hr⟩
    · rw [State.stopRows, if_pos ((s.passes_iff _ f).mpr hpass)]; rfl
    · rw [State.stopRows, if_neg fun h => hfail ((s.passes_iff _ f).mp h), State.shortRows_eq hr]; rfl

/-- Settles O38: the fold over the open list, frame by frame. -/
theorem closeAtStopEmptiesTheOpenList : Obligations.CloseAtStopEmptiesTheOpenList := by
  intro s hs
  refine ⟨fun hc => ⟨_, exec_closeAtStop hs hc, ?_⟩, exec_closeAtStop_stands hs⟩
  have hstand := SlotsStand.settle s.stopCloseAll false
  simp only [State.settle_frame]
  refine ⟨s.stopCloseAll_rnc, s.stopCloseAll_frt, fun f hf => ?_, fun ends hends => ?_, fun hok => ?_, fun hnone => ?_, by simp, by simp,
    by simp, by simp, by simp⟩
  · rw [hstand.slot]
    exact foldl_stopClose_not_opened s.frt.openList s f.slot (.inl ⟨f, hf, rfl⟩)
  · have hcounts := s.stopCloseAll_counts
    rw [flatMap_stopRows hends] at hcounts
    exact State.countsShorts_of_ntu hcounts rfl (by simp)
  · obtain ⟨-, hlisted, hothers, hrecords⟩ := State.stopCloseAll_closes hok
    refine ⟨⟨fun i hi => ?_, fun r => ?_⟩, fun f hf => ⟨fun hpass e he => ?_, fun hfail r hr => ?_⟩⟩
    · rw [hstand.slot, hothers i hi]; exact ⟨rfl, fun _ => rfl⟩
    · rw [hstand.records, hrecords]; simp only [hstand.slot]
    · rw [hstand.slot, hlisted f hf, State.endedAtStop, if_pos ((s.passes_iff _ f).mpr hpass), OpenFrame.finished, he]; rfl
    · rw [hstand.slot, hlisted f hf, State.endedAtStop, if_neg fun h => hfail ((s.passes_iff _ f).mp h), State.shortened,
        State.shortRows_eq hr]
      exact ⟨fun h1 => if_pos h1, fun h0 => if_neg (by omega)⟩
  · obtain ⟨hslm, hntu, hdle⟩ := State.stopCloseAll_nothing hnone
    exact ⟨hslm, hntu, State.sameDelivery_settle (State.sameDelivery_of_dle hdle) false⟩

end Sys2Proof.Machine

/-! # What a tick counts and raises -/

namespace Sys2Proof.Machine

/-! ## Sources raised stay raised -/

/-- From s to t no pending flag is cleared. -/
structure Raises (s t : State) : Prop where
  stays : ∀ x, maskHas s.ntu.pending x = true → maskHas t.ntu.pending x = true

theorem Raises.refl (s : State) : Raises s s := ⟨fun _ => id⟩

theorem Raises.trans {s t u : State} (h : Raises s t) (h' : Raises t u) : Raises s u := ⟨fun x hx => h'.stays x (h.stays x hx)⟩

theorem Raises.of_pending {s t : State} (h : t.ntu.pending = s.ntu.pending) : Raises s t := ⟨fun x hx => by rwa [h]⟩

theorem Raises.foldl {β : Type} (f : State → β → State) (h : ∀ s x, Raises s (f s x)) (xs : List β) (s : State) :
    Raises s (xs.foldl f s) :=
  foldl_holds (Raises s) f (fun t x ht => ht.trans (h t x)) xs s (.refl s)

theorem State.raise_raises (s : State) (x : Source) (fr : Option Nat) (l : Option (Fin 8)) (d : Int) : Raises s (s.raise x fr l d) :=
  ⟨fun y hy => by rw [State.raise_pending, hy]; rfl⟩

theorem Raises.after {s u v : State} (hv : Raises u v) (h : u.ntu.pending = s.ntu.pending) : Raises s v :=
  (Raises.of_pending h).trans hv

theorem Raises.raise {s u : State} (h : Raises s u) (x : Source) (fr : Option Nat) (l : Option (Fin 8)) (d : Int) :
    Raises s (u.raise x fr l d) := h.trans (u.raise_raises x fr l d)

theorem State.fillMark_pending (s : State) (l : Fin 8) (k : Fin 4) (p : Int) (c : FillCause) :
    (s.fillMark l k p c).ntu.pending = s.ntu.pending := by simp

theorem State.fillMark_raises (s : State) (l : Fin 8) (k : Fin 4) (p : Int) (c : FillCause) : Raises s (s.fillMark l k p c) :=
  .of_pending (by rw [State.fillMark_pending])

theorem State.offerEntry_raises (s : State) (t : Int) (e : Fin 8) (x : PhaseEntry) (l : Fin 8) : Raises s (s.offerEntry t e x l) := by
  have hwithhold : Raises s (s.withhold l t x) := by
    unfold State.withhold
    refine .raise (.of_pending ?_) _ _ _ _
    exact s.fillMark_pending _ _ _ _
  unfold State.offerEntry
  dsimp only
  repeat' split
  · exact .of_pending rfl
  · exact hwithhold
  · exact .of_pending ((State.fillMark_pending _ _ _ _ _).trans rfl)
  · exact hwithhold
  · exact s.fillMark_raises _ _ _ _
  · exact .refl s
  · exact .refl s

theorem State.offered_raises (s : State) (t : Int) (e : Fin 8) (x : PhaseEntry) : Raises s (s.offered t e x) := by
  unfold State.offered
  exact Raises.foldl _ (fun u l => u.offerEntry_raises t e x l) indices s

theorem State.issueNext_raises (s : State) : Raises s s.issueNext := by
  rcases s.issueNext_cases with h | ⟨g, e, -, -, h⟩
  · rw [h]; exact .refl s
  · rw [h]
    have hoffered := (s.pulsed (s.tru.table.get e)).offered_raises g.tick e (s.tru.table.get e)
    exact (Raises.after (s := s) hoffered rfl).trans (.of_pending (t := State.oneIssued _ g) rfl)

theorem State.overspeedTick_raises (s : State) (t : Int) :
    Raises s (s.overspeedTick t) ∧ maskHas (s.overspeedTick t).ntu.pending .overspeed = true := by
  have hmarks : Raises s (indices.foldl (fun u l => u.overspeedMarks t l) s) :=
    Raises.foldl _ (fun u l => .of_pending (by simp)) indices s
  unfold State.overspeedTick
  dsimp only
  refine ⟨.raise (hmarks.trans (.of_pending ?_)) _ _ _ _, by rw [State.raise_pending]; simp⟩
  rfl

theorem State.decideTick_raises (s : State) (t : Int) : Raises s (s.decideTick t) := by
  unfold State.decideTick State.issueGroup
  repeat' split
  · refine .after (State.issueNext_raises _) ?_
    rfl
  · exact (s.overspeedTick_raises t).1
  · exact .refl s

theorem State.spurious_raises (s : State) (t : Int) (n : Nat) : Raises s (s.spurious t n) := by
  unfold State.spurious
  split
  · exact .refl s
  · refine .raise (.of_pending ?_) _ _ _ _
    rfl

theorem State.dropFrame_raises (s : State) (n : Nat) (c : DropReason) : Raises s (s.dropFrame n c) := by
  unfold State.dropFrame
  refine .raise (.of_pending ?_) _ _ _ _
  rfl

theorem State.evict_raises (s : State) (i : Nat) : Raises s (s.evict i) := by
  unfold State.evict
  dsimp only
  refine .raise (.of_pending ?_) _ _ _ _
  rfl

theorem State.setUpSlot_ntu (s : State) (i n : Nat) (p : Int) (k : BoundaryKind) : (s.setUpSlot i n p k).ntu = s.ntu := by simp

theorem State.openFrame_raises (s : State) (n : Nat) (p : Int) (k : BoundaryKind) : Raises s (s.openFrame n p k) := by
  rcases s.openFrame_cases n p k with ⟨-, h⟩ | ⟨-, ⟨-, h⟩ | ⟨i, t, ha, h⟩⟩
  · rw [h]; exact s.dropFrame_raises _ _
  · rw [h]; exact s.dropFrame_raises _ _
  · have halloc : Raises s t := by
      rcases s.allocate_cases n p k with ⟨j, -, hj⟩ | ⟨-, ⟨-, j, -, hj⟩ | ⟨-, hj⟩⟩
      · rw [(Prod.mk.inj (ha.symm.trans hj)).2]
        exact .of_pending (by rw [State.setUpSlot_ntu])
      · rw [(Prod.mk.inj (ha.symm.trans hj)).2]
        exact (s.evict_raises j).trans (.of_pending (by rw [State.setUpSlot_ntu]))
      · exact absurd (Prod.mk.inj (ha.symm.trans hj)).1 (by simp)
    rw [h]
    exact halloc.trans (.of_pending rfl)

theorem State.boundaryBegun_raises (s : State) (k : BoundaryKind) :
    Raises s (s.boundaryBegun k) ∧ (k = .synth → maskHas (s.boundaryBegun k).ntu.pending .indexSynth = true) := by
  unfold State.boundaryBegun
  dsimp only
  split
  · refine ⟨.raise (.of_pending ?_) _ _ _ _, fun _ => by rw [State.raise_pending]; simp⟩
    rfl
  · next h => exact ⟨.of_pending rfl, fun hk => absurd hk h⟩

theorem State.boundaryClosed_raises (s : State) (t : Int) (k : BoundaryKind) : Raises (s.boundaryBegun k) (s.boundaryClosed t k) :=
  .of_pending (by simp [State.boundaryClosed])

theorem State.takeBoundary_raises (s : State) (t : Int) (k : BoundaryKind) :
    Raises s (s.takeBoundary t k) ∧ (k = .synth → maskHas (s.takeBoundary t k).ntu.pending .indexSynth = true) := by
  obtain ⟨hbegun, hsynth⟩ := s.boundaryBegun_raises k
  rw [State.takeBoundary_eq]
  have hrest := (s.boundaryClosed_raises t k).trans ((s.boundaryClosed t k).openFrame_raises
    s.frt.counter (t + (s.frt.record.offset : Int)) k)
  have hall := hrest.trans (.of_pending (t := State.tracking _ t) rfl)
  exact ⟨hbegun.trans hall, fun hk => hall.stays _ (hsynth hk)⟩

theorem State.judgeTick_raises (s : State) (t : Int) (n : Nat) : Raises s (s.judgeTick t n) := by
  rcases s.judgeTick_cases t n with ⟨-, h⟩ | ⟨-, ⟨kind, spare, -, h⟩ | ⟨spare, -, ⟨-, h⟩ | ⟨-, h⟩⟩⟩
  · rw [h]; exact .refl s
  · rw [h]; exact (s.takeBoundary_raises t kind).1.trans (State.spurious_raises _ _ _)
  · rw [h]; exact (s.spurious_raises t spare).trans (.of_pending (by simp))
  · rw [h]; exact s.spurious_raises t spare

theorem State.progressed_raises (s : State) : Raises s s.progressed := .of_pending (by simp)

theorem State.handTick_raises (s : State) : Raises s s.handTick := by
  unfold State.handTick
  dsimp only
  have hjudged := State.judgeTick_raises { s with ptk := { s.ptk with pendingEdges := 0 } } s.ptk.tick s.ptk.pendingEdges
  have hbase : Raises s (State.judgeTick { s with ptk := { s.ptk with pendingEdges := 0 } } s.ptk.tick s.ptk.pendingEdges) :=
    hjudged.after rfl
  exact (hbase.trans (State.decideTick_raises _ s.ptk.tick)).trans (State.progressed_raises _)

theorem State.emitTick_raises (s : State) : Raises s s.emitTick := by
  unfold State.emitTick
  dsimp only
  split
  · exact .of_pending rfl
  · refine .after (State.handTick_raises _) ?_
    rfl

theorem State.rewindFrames_raises (s : State) (b : Int) : Raises s (s.rewindFrames b) := ⟨fun x => s.rewindFrames_pending b x⟩

theorem State.rewind_raises (s : State) : Raises s s.rewind := by
  unfold State.rewind
  dsimp only
  split
  · refine .raise (.of_pending ?_) _ _ _ _
    rfl
  · refine .trans ?_ (State.progressed_raises _)
    refine .trans ?_ (State.rewindFrames_raises _ _)
    refine .raise (.of_pending ?_) _ _ _ _
    rfl

theorem State.forwardCount_raises (s : State) : Raises s s.forwardCount := by
  rcases s.forwardCount_cases with ⟨-, h⟩ | ⟨-, -, h⟩ | ⟨-, -, ⟨-, h⟩ | ⟨-, h⟩⟩ <;> rw [h]
  · exact .of_pending rfl
  · exact .of_pending rfl
  · exact .of_pending rfl
  · exact s.carried.emitTick_raises.after rfl

theorem State.reverseCount_raises (s : State) : Raises s s.reverseCount := by
  rcases s.reverseCount_cases with ⟨-, h⟩ | ⟨-, -, h⟩ | ⟨-, -, ⟨-, h⟩ | ⟨-, -, h⟩⟩ <;> rw [h]
  · exact .of_pending rfl
  · exact .of_pending rfl
  · exact .of_pending rfl
  · exact s.borrowed.rewind_raises.after rfl

/-! ## The position counters -/

theorem State.raise_position (s : State) (x : Source) (fr : Option Nat) (l : Option (Fin 8)) (d : Int) :
    (s.raise x fr l d).ntu.counters.position = s.ntu.counters.position := by simp

@[simp] theorem State.offerEntry_position (s : State) (t : Int) (e : Fin 8) (x : PhaseEntry) (l : Fin 8) :
    (s.offerEntry t e x l).ntu.counters.position = s.ntu.counters.position := by
  unfold State.offerEntry State.withhold
  dsimp only
  (repeat' split) <;> simp

@[simp] theorem State.issueNext_position (s : State) : s.issueNext.ntu.counters.position = s.ntu.counters.position := by
  rcases s.issueNext_cases with h | ⟨g, e, -, -, h⟩
  · rw [h]
  · rw [h]
    exact foldl_keeps (fun u : State => u.ntu.counters.position) (fun u l => u.offerEntry g.tick e _ l)
      (fun u l => u.offerEntry_position _ _ _ _) indices _

/-- An overspeed tick is counted (R36). -/
theorem State.overspeedTick_position (s : State) (t : Int) :
    (s.overspeedTick t).ntu.counters.position
      = { s.ntu.counters.position with overspeedTicks := countUp 1 s.ntu.counters.position.overspeedTicks } := by
  have hmark (u : State) (l : Fin 8) : (u.overspeedMarks t l).ntu.counters.position = u.ntu.counters.position := by
    unfold State.overspeedMarks
    split
    · rfl
    · exact foldl_keeps (fun v : State => v.ntu.counters.position) _ (fun v k => by simp) _ u
  have hmarks := foldl_keeps (fun u : State => u.ntu.counters.position) (fun u l => u.overspeedMarks t l) hmark indices s
  unfold State.overspeedTick
  dsimp only
  rw [State.raise_position]
  simp only [State.countPosition, hmarks]

@[simp] theorem State.spurious_position (s : State) (t : Int) (n : Nat) :
    (s.spurious t n).ntu.counters.position = if n = 0 then s.ntu.counters.position
      else { s.ntu.counters.position with spuriousIndex := countUp n s.ntu.counters.position.spuriousIndex } := by
  unfold State.spurious
  split
  · rfl
  · rw [State.raise_position]; rfl

theorem State.boundaryBegun_position (s : State) (k : BoundaryKind) :
    (s.boundaryBegun k).ntu.counters.position = if k = .synth then
      { s.ntu.counters.position with synthesisedIndex := countUp 1 s.ntu.counters.position.synthesisedIndex }
      else s.ntu.counters.position := by
  unfold State.boundaryBegun
  dsimp only
  split
  · rw [State.raise_position]; rfl
  · rfl

theorem State.takeBoundary_position (s : State) (t : Int) (k : BoundaryKind) :
    (s.takeBoundary t k).ntu.counters.position = if k = .synth then
      { s.ntu.counters.position with synthesisedIndex := countUp 1 s.ntu.counters.position.synthesisedIndex }
      else s.ntu.counters.position := by
  rw [← State.boundaryBegun_position, State.takeBoundary_eq]
  have hclosed : (s.boundaryClosed t k).ntu.counters.position = (s.boundaryBegun k).ntu.counters.position := by
    simp [State.boundaryClosed]
  rw [← hclosed]
  exact (State.openFrame_counters _ _ _ _).2.1

/-- What a tick judged counts: a SYNTH boundary, and its spurious edges. -/
theorem State.judgeTick_position (s : State) (t : Int) (n : Nat) (hr : s.rnc.runState = .running) :
    let judged := s.frt.judge t n
    let p := s.ntu.counters.position
    (s.judgeTick t n).ntu.counters.position =
      { p with
        synthesisedIndex := if judged.1 = some .synth then countUp 1 p.synthesisedIndex else p.synthesisedIndex,
        spuriousIndex := if judged.2 = 0 then p.spuriousIndex else countUp judged.2 p.spuriousIndex } := by
  intro judged p
  rcases s.judgeTick_cases t n with ⟨h, -⟩ | ⟨-, ⟨kind, spare, hj, h⟩ | ⟨spare, hj, ⟨-, h⟩ | ⟨-, h⟩⟩⟩
  · exact absurd hr h
  · rw [h, State.spurious_position, State.takeBoundary_position]
    simp only [judged, hj, Option.some.injEq]
    split <;> split <;> rfl
  · rw [h, (State.truncateNewest_counters _ _).2.1, State.spurious_position]
    simp only [judged, hj]
    split <;> rfl
  · rw [h, State.spurious_position]
    simp only [judged, hj]
    split <;> rfl

theorem State.judgeTick_ticks (s : State) (t : Int) (n : Nat) :
    (s.judgeTick t n).ntu.counters.position.ticks = s.ntu.counters.position.ticks := by
  by_cases hr : s.rnc.runState = .running
  · rw [s.judgeTick_position t n hr]
  · rcases s.judgeTick_cases t n with ⟨-, h⟩ | ⟨h, -⟩
    · rw [h]
    · exact absurd h hr

theorem State.decideTick_ticks (s : State) (t : Int) :
    (s.decideTick t).ntu.counters.position.ticks = s.ntu.counters.position.ticks := by
  unfold State.decideTick State.issueGroup
  repeat' split
  · rw [State.issueNext_position]
  · rw [State.overspeedTick_position]
  · rfl

/-- A tick handed on is not counted again. -/
theorem State.handTick_ticks (s : State) : s.handTick.ntu.counters.position.ticks = s.ntu.counters.position.ticks := by
  unfold State.handTick
  dsimp only
  have hframe := State.progressed_frame (State.decideTick (State.judgeTick { s with ptk := { s.ptk with pendingEdges := 0 } }
    s.ptk.tick s.ptk.pendingEdges) s.ptk.tick)
  rw [hframe.2.2.2.2.2.2.2.2.2.2.2.2.2.2.2, State.decideTick_ticks, State.judgeTick_ticks]

theorem State.emitTick_ticks (s : State) : s.emitTick.ntu.counters.position.ticks = countUp 1 s.ntu.counters.position.ticks := by
  unfold State.emitTick
  dsimp only
  split
  · rfl
  · rw [State.handTick_ticks]; rfl

end Sys2Proof.Machine

/-! # Counts (R3 to R11, R79, R80) -/

namespace Sys2Proof.Machine

theorem exec_count {s : State} (line : EncLine) (h : s.pwrOk = true) :
    exec (.count line) s = .next ((s.takeCount line).settle
      (decide (s.rnc.runState ≠ .config ∧ s.ptk.high < (s.takeCount line).ptk.high) || s.progressMoved (s.takeCount line))) := by
  have harm : exec (.count line) s = execCount line s := rfl
  rw [harm, execCount, State.whenPowered_high _ _ h]

/-! ## The decoder and the motion logic (R3, R12, R13) -/

/-- The part of the Position Tracker that the accumulator leaves alone: the decoder, the motion state and its timers, and the scale. -/
def Ptk.decoder (k : Ptk) : ScaleRecord × Bool × Bool × BitVec 32 × Motion × Option Nat × Option Nat :=
  (k.scale, k.quadA, k.quadB, k.encoderCount, k.motion, k.stallTimer, k.stallCloseTimer)

theorem State.forwardCount_decoder (s : State) : s.forwardCount.ptk.decoder = s.ptk.decoder := by
  rcases s.forwardCount_cases with ⟨-, h⟩ | ⟨-, -, h⟩ | ⟨-, -, ⟨-, h⟩ | ⟨-, h⟩⟩ <;> rw [h]
  · rfl
  · rfl
  · rfl
  · rw [State.emitTick_ptk]; rfl

theorem State.reverseCount_decoder (s : State) : s.reverseCount.ptk.decoder = s.ptk.decoder := by
  rcases s.reverseCount_cases with ⟨-, h⟩ | ⟨-, -, h⟩ | ⟨-, -, ⟨-, h⟩ | ⟨-, -, h⟩⟩ <;> rw [h]
  · rfl
  · rfl
  · rfl
  · rw [State.rewind_ptk]; rfl

theorem State.takeCount_decoder (s : State) (line : EncLine) : (s.takeCount line).ptk.decoder = (s.afterMotion line).ptk.decoder := by
  rw [State.takeCount_eq]
  split
  · exact State.forwardCount_decoder _
  · exact State.reverseCount_decoder _

theorem State.takeCount_raises (s : State) (line : EncLine) : Raises (s.afterMotion line) (s.takeCount line) := by
  rw [State.takeCount_eq]
  split
  · exact State.forwardCount_raises _
  · exact State.reverseCount_raises _

/-- A count that ends a stall raises MOTION (R13). -/
theorem State.afterMotion_raises {s : State} (h : s.ptk.motion = .stalled) (line : EncLine) :
    maskHas (s.afterMotion line).ntu.pending .motion = true := by
  unfold State.afterMotion State.moved
  split
  · next hm => exact Motion.noConfusion (h.symm.trans hm)
  · rw [State.raise_pending]; simp

/-- The transitions of R3 that run forward. -/
theorem forwardTransition_eq (a b c d : Bool) :
    forwardTransition (a, b) (c, d) = decide ((a, b, c, d) ∈
      [(false, false, true, false), (true, false, true, true), (true, true, false, true), (false, true, false, false)]) := by
  revert a b c d; decide

/-- Settles O30: the decoder and the motion logic come first, and what follows leaves their part alone. -/
theorem countsMoveTheDecoderAndTheMotion : Obligations.CountsMoveTheDecoderAndTheMotion := by
  intro line s hs
  have hdecoder := s.takeCount_decoder line
  rw [s.afterMotion_ptk line] at hdecoder
  simp only [Ptk.decoder, Prod.mk.injEq] at hdecoder
  obtain ⟨hscale, hA, hB, hcount, hmotion, hstall, hclose⟩ := hdecoder
  refine ⟨_, exec_count line hs, ?_⟩
  simp only [State.settle_frame, State.takeCount_frame, hscale, hA, hB, hcount, hmotion, hstall, hclose, true_and, and_true]
  refine ⟨?_, ?_, ?_, rfl, fun hm => ⟨if_pos hm, (s.takeCount_raises line).stays _ (State.afterMotion_raises hm line)⟩⟩
  · rintro rfl; exact ⟨rfl, rfl⟩
  · rintro rfl; exact ⟨rfl, rfl⟩
  · rw [← forwardTransition_eq]; rfl

/-! ## Forward counts (R5, R7, R8, R9) -/

/-- The readings that the decoder and the motion logic leave alone. -/
theorem State.afterMotion_readings (s : State) (line : EncLine) :
    (s.afterMotion line).ptk.scale = s.ptk.scale ∧ (s.afterMotion line).ptk.acc = s.ptk.acc
      ∧ (s.afterMotion line).ptk.tick = s.ptk.tick ∧ (s.afterMotion line).ptk.high = s.ptk.high
      ∧ (s.afterMotion line).ptk.tickTimer = s.ptk.tickTimer ∧ (s.afterMotion line).ptk.interval = s.ptk.interval
      ∧ (s.afterMotion line).ptk.pendingEdges = s.ptk.pendingEdges := by
  rw [s.afterMotion_ptk line]
  exact ⟨rfl, rfl, rfl, rfl, rfl, rfl, rfl⟩

/-- Two states alike but for the Position Tracker, the notices and the counters. -/
structure State.AsideFromPosition (s t : State) : Prop where
  tru : t.tru = s.tru
  lanes : t.lanes = s.lanes
  frt : t.frt = s.frt
  slm : t.slm = s.slm
  layout : t.layout = s.layout
  dle : t.dle = s.dle

theorem State.emitTick_config {s : State} (h : s.rnc.runState = .config) : s.AsideFromPosition s.emitTick := by
  unfold State.emitTick
  dsimp only
  split
  · exact ⟨rfl, rfl, rfl, rfl, rfl, rfl⟩
  · next hc => exact absurd h hc

theorem State.forwardCount_within {s : State} (h : s.ptk.acc + s.ptk.scale.step < s.ptk.scale.pitch) :
    s.forwardCount = { s with ptk := { s.ptk with acc := s.ptk.acc + s.ptk.scale.step } } := if_pos h

theorem State.forwardCount_beyond {s : State} (h : s.ptk.scale.pitch ≤ s.ptk.acc + s.ptk.scale.step)
    (hmax : Config.tickMax < s.ptk.tick + 1) : s.forwardCount = s.encoderErrorCounted :=
  (if_neg (Nat.not_lt.mpr h)).trans (if_pos hmax)

theorem State.forwardCount_behind {s : State} (h : s.ptk.scale.pitch ≤ s.ptk.acc + s.ptk.scale.step)
    (hmax : s.ptk.tick + 1 ≤ Config.tickMax) (hhigh : s.ptk.tick + 1 ≤ s.ptk.high) : s.forwardCount = s.carried :=
  ((if_neg (Nat.not_lt.mpr h)).trans (if_neg (Int.not_lt.mpr hmax))).trans (if_neg (Int.not_lt.mpr hhigh))

theorem State.forwardCount_ticks {s : State} (h : s.ptk.scale.pitch ≤ s.ptk.acc + s.ptk.scale.step)
    (hmax : s.ptk.tick + 1 ≤ Config.tickMax) (hhigh : s.ptk.high < s.ptk.tick + 1) : s.forwardCount = s.carried.emitTick :=
  ((if_neg (Nat.not_lt.mpr h)).trans (if_neg (Int.not_lt.mpr hmax))).trans (if_pos hhigh)

/-- A forward count that raises no H emits no tick, and leaves all but A and T, or the encoder-errors counter. -/
theorem State.forwardCount_no_tick {s : State} (h : s.forwardCount.ptk.high = s.ptk.high) :
    s.AsideFromPosition s.forwardCount ∧ s.forwardCount.ptk.tickTimer = s.ptk.tickTimer
      ∧ s.forwardCount.ptk.interval = s.ptk.interval ∧ s.forwardCount.ptk.pendingEdges = s.ptk.pendingEdges
      ∧ s.forwardCount.ntu.counters.position.ticks = s.ntu.counters.position.ticks := by
  rcases s.forwardCount_cases with ⟨-, ht⟩ | ⟨-, -, ht⟩ | ⟨-, -, ⟨-, ht⟩ | ⟨hh, ht⟩⟩
  · rw [ht]; exact ⟨⟨rfl, rfl, rfl, rfl, rfl, rfl⟩, rfl, rfl, rfl, rfl⟩
  · rw [ht]; exact ⟨⟨rfl, rfl, rfl, rfl, rfl, rfl⟩, rfl, rfl, rfl, rfl⟩
  · rw [ht]; exact ⟨⟨rfl, rfl, rfl, rfl, rfl, rfl⟩, rfl, rfl, rfl, rfl⟩
  · rw [ht, State.emitTick_ptk] at h
    exact absurd h hh.ne'

theorem State.forwardCount_config {s : State} (h : s.rnc.runState = .config) : s.AsideFromPosition s.forwardCount := by
  rcases s.forwardCount_cases with ⟨-, ht⟩ | ⟨-, -, ht⟩ | ⟨-, -, ⟨-, ht⟩ | ⟨-, ht⟩⟩ <;> rw [ht]
  · exact ⟨rfl, rfl, rfl, rfl, rfl, rfl⟩
  · exact ⟨rfl, rfl, rfl, rfl, rfl, rfl⟩
  · exact ⟨rfl, rfl, rfl, rfl, rfl, rfl⟩
  · obtain ⟨h1, h2, h3, h4, h5, h6⟩ := State.emitTick_config (s := s.carried) h
    exact ⟨h1, h2, h3, h4, h5, h6⟩

/-- What a carry makes of A, T, H, the tick timer and the counters. -/
theorem State.forwardCount_carries {s : State} (h : s.ptk.scale.pitch ≤ s.ptk.acc + s.ptk.scale.step)
    (hmax : s.ptk.tick + 1 ≤ Config.tickMax) :
    s.forwardCount.ptk.acc = s.ptk.acc + s.ptk.scale.step - s.ptk.scale.pitch ∧ s.forwardCount.ptk.tick = s.ptk.tick + 1
      ∧ s.forwardCount.ptk.high = max s.ptk.high (s.ptk.tick + 1)
      ∧ (s.ptk.high < s.ptk.tick + 1 →
          s.forwardCount.ptk.tickTimer = some s.now
            ∧ s.forwardCount.ptk.interval = s.ptk.tickTimer.map (fun u => min 4294967295 (max 1 (s.now - u)))
            ∧ s.forwardCount.ntu.counters.position.ticks = min 4294967295 (s.ntu.counters.position.ticks + 1)
            ∧ s.forwardCount.ptk.pendingEdges = if s.rnc.runState = .config then s.ptk.pendingEdges else 0) := by
  by_cases hh : s.ptk.high < s.ptk.tick + 1
  · rw [State.forwardCount_ticks h hmax hh, State.emitTick_ptk, State.emitTick_ticks]
    exact ⟨rfl, rfl, (max_eq_right hh.le).symm, fun _ => ⟨rfl, rfl, rfl, rfl⟩⟩
  · rw [State.forwardCount_behind h hmax (Int.not_lt.mp hh)]
    exact ⟨rfl, rfl, (max_eq_left (Int.not_lt.mp hh)).symm, fun hlt => absurd hlt hh⟩

theorem State.takeCount_forward {s : State} {line : EncLine} (h : s.ptk.countForward line = true) :
    s.takeCount line = (s.afterMotion line).forwardCount := by rw [State.takeCount_eq, if_pos h]

theorem State.takeCount_reverse {s : State} {line : EncLine} (h : s.ptk.countForward line = false) :
    s.takeCount line = (s.afterMotion line).reverseCount := by rw [State.takeCount_eq, if_neg (by simp [h])]

/-- Settles O31: the cases of a forward count, after the decoder and the motion logic. -/
theorem forwardCountsAccumulateAndTick : Obligations.ForwardCountsAccumulateAndTick := by
  intro line s hs hforward
  have hcarries := (s.afterMotion line).forwardCount_carries
  have hwithin := (s.afterMotion line).forwardCount_within
  have hbeyond := (s.afterMotion line).forwardCount_beyond
  have hstill := (s.afterMotion line).forwardCount_no_tick
  have hconfig := (s.afterMotion line).forwardCount_config
  obtain ⟨hscale, hacc, htick, hhigh, htimer, hinterval, hedges⟩ := s.afterMotion_readings line
  obtain ⟨-, hnow, -, htru, hlanes, hfrt, hslm, hlayout, hdle, hrnc, -, hcounters⟩ := s.afterMotion_frame line
  simp only [hscale, hacc, htick, hhigh, htimer, hinterval, hedges, hnow, hcounters, hrnc] at hcarries hwithin hbeyond hstill hconfig
  refine ⟨_, exec_count line hs, ?_⟩
  simp only [State.settle_frame, State.takeCount_forward hforward]
  refine ⟨fun h => ?_, fun h hmax => ?_, fun h hmax => hcarries h hmax, fun h => (hstill h).2, fun h => ?_⟩
  · rw [hwithin h]; exact ⟨rfl, rfl, rfl, hcounters⟩
  · rw [hbeyond h hmax]
    exact ⟨hacc, htick, hhigh, congrArg (fun c : Counters => min 4294967295 (c.position.encoderErrors + 1)) hcounters⟩
  · obtain ⟨h1, h2, h3, h4, h5, h6⟩ := h.elim (fun h => (hstill h).1) hconfig
    exact ⟨h1.trans htru, h2.trans hlanes, h3.trans hfrt, h4.trans hslm, h5.trans hlayout,
      State.sameDelivery_settle (State.sameDelivery_of_dle (h6.trans hdle)) _⟩

/-! ## Rewinds (R11, R79, R80) -/

/-- The state as a rewind reaches the Frame Tracker: H fallen to T, the rewind counted and raised. -/
def State.rewound (s : State) : State :=
  (State.countPosition { s with ptk := { s.ptk with high := s.ptk.tick, tickTimer := none, interval := none } } fun c =>
    { c with rewinds := countUp 1 c.rewinds }).raise .rewind

theorem State.rewind_eq (s : State) :
    s.rewind = if s.rnc.runState = .config then s.rewound else (s.rewound.rewindFrames s.ptk.high).progressed := by
  have hrnc : s.rewound.rnc = s.rnc := by simp [State.rewound]
  rw [← hrnc]
  rfl

theorem State.rewound_frame (s : State) :
    s.rewound.tru = s.tru ∧ s.rewound.lanes = s.lanes ∧ s.rewound.frt = s.frt ∧ s.rewound.slm = s.slm ∧ s.rewound.layout = s.layout
      ∧ s.rewound.dle = s.dle ∧ s.rewound.rnc = s.rnc ∧ s.rewound.ntu.counters.frames = s.ntu.counters.frames := by
  simp [State.rewound]

theorem State.rewound_pending (s : State) (x : Source) :
    maskHas s.rewound.ntu.pending x = (maskHas s.ntu.pending x || decide (x = .rewind)) := by
  rw [State.rewound, State.raise_pending]; rfl

theorem State.rewound_book (s : State) : s.rewound.book = s.book := by
  rw [State.rewound, State.raise_book, State.countPosition_book]; rfl

/-- The open list short-closed with a high-water mark. -/
theorem State.rewindFrames_frt (s : State) (b : Int) :
    (s.rewindFrames b).frt = { s.frt with openList := [], state := .seeking, lastBoundary := none, rewindHold := true } := by
  unfold State.rewindFrames
  dsimp only
  rw [State.shortCloseAll_frt]; rfl

theorem State.rewindFrames_closes {s : State} (hok : s.framesOk) (b : Int) :
    (s.rewindFrames b).framesOk ∧ ListClosed (s.shortened b .shortRewind) s (s.rewindFrames b) s.frt.openList := by
  obtain ⟨hrest, hclosed⟩ := State.shortCloseAll_closes hok b .shortRewind
  have hopen : (s.shortCloseAll b .shortRewind).frt.openList = [] := rfl
  rw [State.framesOk_iff, hopen] at hrest
  have hrecord : (s.shortCloseAll b .shortRewind).frt.record = s.frt.record := by rw [State.shortCloseAll_frt]
  obtain ⟨hlanes, htru, hrnc, hfrt, hptk⟩ := hclosed.gates
  have hfrt' : (s.rewindFrames b).frt.openList = [] := rfl
  exact ⟨(State.framesOk_iff _).mpr (by rw [hfrt']; exact hrest), hclosed.listed, hclosed.others, hclosed.records, hlanes, htru, hrnc,
    hfrt, hptk⟩

/-- With nothing open the tests of progress change the ready-band counts of OPEN slots alone. -/
theorem State.progressed_of_empty {s : State} (h : s.frt.openList = []) :
    s.progressed = s.readinessTest := by
  have hclose : s.closeTest s.ptk.high = s.withOpenList [] := by
    rw [State.closeTest, h, closePassing_nil]
  have hsame : s.withOpenList [] = s := by unfold State.withOpenList; rw [← h]
  rw [State.progressed, hclose, hsame]

/-! ## Through the tests of progress and the ports' choices -/

/-- From one state to another a slot that is not OPEN is the same, and an OPEN one but for its ready-band counts. -/
structure SlotsReady (t u : State) : Prop where
  ready : ∀ i, u.slot i = { t.slot i with ready := (u.slot i).ready }
  slot : ∀ i, (t.slot i).state ≠ .opened → u.slot i = t.slot i
  records : ∀ r, (u.dle.records.get r).map Delivery.core = (t.dle.records.get r).map Delivery.core

theorem SlotsReady.of_readinessTest (t : State) : SlotsReady t t.readinessTest where
  ready i := by rw [State.readinessTest_slot]; exact t.readySlot_eq _
  slot i h := by rw [State.readinessTest_slot]; exact t.readySlot_of_not_opened h
  records r := rfl

theorem SlotsReady.stand {t u v : State} (h : SlotsReady t u) (h' : SlotsStand u v) : SlotsReady t v where
  ready i := by rw [h'.slot]; exact h.ready i
  slot i hi := (h'.slot i).trans (h.slot i hi)
  records r := (h'.records r).trans (h.records r)

section Listed

variable {s t u : State} {after : OpenFrame → Slot → Slot} {fs : List OpenFrame}

theorem SlotsReady.state (h : SlotsReady t u) (i : Nat) : (u.slot i).state = (t.slot i).state := by rw [h.ready i]

theorem ListClosed.onlyCloses_ready (h : ListClosed after s t fs) (hu : SlotsReady t u) : s.onlyCloses u fs := by
  refine ⟨fun i hi => ?_, fun r => ?_⟩
  · rw [← h.others i hi]; exact ⟨hu.ready i, hu.slot i⟩
  · rw [hu.records, h.records]; simp only [hu.state]

theorem ListClosed.shortCloses_ready {base : State} {high : Int} {reason : CloseReason} {f : OpenFrame}
    (h : ListClosed (base.shortened high reason) s t fs) (hu : SlotsReady t u) (hf : f ∈ fs) {r : Int} (hr : base.isShortRows high f r) :
    (1 ≤ r → u.slot f.slot = (s.slot f.slot).closedAs r.toNat reason) ∧ (r ≤ 0 → u.slot f.slot = Slot.empty) := by
  have hclosed : (t.slot f.slot).state ≠ .opened := by
    rw [h.listed f hf]; exact (base.shortened_closing high reason).not_opened f _
  rw [hu.slot _ hclosed, h.listed f hf, State.shortened, State.shortRows_eq hr]
  exact ⟨fun h1 => if_pos h1, fun h0 => if_neg (by omega)⟩

end Listed

/-! ## Reverse counts (R6, R9, R11) -/

theorem State.reverseCount_within {s : State} (h : s.ptk.scale.step ≤ s.ptk.acc) :
    s.reverseCount = { s with ptk := { s.ptk with acc := s.ptk.acc - s.ptk.scale.step } } := if_pos h

theorem State.reverseCount_beyond {s : State} (h : s.ptk.acc < s.ptk.scale.step) (hmin : s.ptk.tick - 1 < Config.tickMin) :
    s.reverseCount = s.encoderErrorCounted := (if_neg (Nat.not_le.mpr h)).trans (if_pos hmin)

theorem State.reverseCount_borrows {s : State} (h : s.ptk.acc < s.ptk.scale.step) (hmin : Config.tickMin ≤ s.ptk.tick - 1)
    (hlimit : s.ptk.scale.reverseLimit = 0 ∨ s.ptk.high - (s.ptk.tick - 1) < s.ptk.scale.reverseLimit) : s.reverseCount = s.borrowed :=
  ((if_neg (Nat.not_le.mpr h)).trans (if_neg (Int.not_lt.mpr hmin))).trans
    (if_neg fun hr => hlimit.elim hr.1 (Int.not_lt.mpr hr.2))

theorem State.reverseCount_rewinds {s : State} (h : s.ptk.acc < s.ptk.scale.step) (hmin : Config.tickMin ≤ s.ptk.tick - 1)
    (h0 : s.ptk.scale.reverseLimit ≠ 0) (hlimit : (s.ptk.scale.reverseLimit : Int) ≤ s.ptk.high - (s.ptk.tick - 1)) :
    s.reverseCount = s.borrowed.rewind :=
  ((if_neg (Nat.not_le.mpr h)).trans (if_neg (Int.not_lt.mpr hmin))).trans (if_pos ⟨h0, hlimit⟩)

theorem State.rewind_config {s : State} (h : s.rnc.runState = .config) : s.AsideFromPosition s.rewind := by
  obtain ⟨htru, hlanes, hfrt, hslm, hlayout, hdle, -⟩ := s.rewound_frame
  rw [State.rewind_eq, if_pos h]
  exact ⟨htru, hlanes, hfrt, hslm, hlayout, hdle⟩

/-- A borrow moves A and T, whether or not a rewind follows. -/
theorem State.reverseCount_lends {s : State} (h : s.ptk.acc < s.ptk.scale.step) (hmin : Config.tickMin ≤ s.ptk.tick - 1) :
    s.reverseCount.ptk.acc = s.ptk.acc + s.ptk.scale.pitch - s.ptk.scale.step ∧ s.reverseCount.ptk.tick = s.ptk.tick - 1 := by
  rcases s.reverseCount_cases with ⟨hle, -⟩ | ⟨-, hlt, -⟩ | ⟨-, -, ⟨-, ht⟩ | ⟨-, -, ht⟩⟩
  · exact absurd h (Nat.not_lt.mpr hle)
  · exact absurd hmin (Int.not_le.mpr hlt)
  · rw [ht]; exact ⟨rfl, rfl⟩
  · rw [ht, State.rewind_ptk]; exact ⟨rfl, rfl⟩

/-- A reverse count emits no tick. -/
theorem State.reverseCount_ticks (s : State) :
    s.reverseCount.ntu.counters.position.ticks = s.ntu.counters.position.ticks
      ∧ s.reverseCount.ptk.pendingEdges = s.ptk.pendingEdges := by
  rcases s.reverseCount_cases with ⟨-, h⟩ | ⟨-, -, h⟩ | ⟨-, -, ⟨-, h⟩ | ⟨-, -, h⟩⟩ <;> rw [h]
  · exact ⟨rfl, rfl⟩
  · exact ⟨rfl, rfl⟩
  · exact ⟨rfl, rfl⟩
  · rw [(State.rewind_counts _).1, State.rewind_ptk]; exact ⟨rfl, rfl⟩

/-- A reverse count that leaves H alone, or one in CONFIG, leaves all but A and T, or the counters and the interval. -/
theorem State.reverseCount_aside {s : State} (h : s.reverseCount.ptk.high = s.ptk.high ∨ s.rnc.runState = .config) :
    s.AsideFromPosition s.reverseCount := by
  rcases s.reverseCount_cases with ⟨-, ht⟩ | ⟨-, -, ht⟩ | ⟨-, -, ⟨-, ht⟩ | ⟨h0, hr, ht⟩⟩
  · rw [ht]; exact ⟨rfl, rfl, rfl, rfl, rfl, rfl⟩
  · rw [ht]; exact ⟨rfl, rfl, rfl, rfl, rfl, rfl⟩
  · rw [ht]; exact ⟨rfl, rfl, rfl, rfl, rfl, rfl⟩
  · rw [ht] at h ⊢
    have hfalls : s.borrowed.rewind.ptk.high ≠ s.ptk.high := by
      rw [State.rewind_ptk]
      show s.ptk.tick - 1 ≠ s.ptk.high
      omega
    obtain ⟨h1, h2, h3, h4, h5, h6⟩ := State.rewind_config (s := s.borrowed) (h.resolve_left hfalls)
    exact ⟨h1, h2, h3, h4, h5, h6⟩

theorem State.reverseCount_interval {s : State} (h : s.reverseCount.ptk.high = s.ptk.high) :
    s.reverseCount.ptk.tickTimer = s.ptk.tickTimer ∧ s.reverseCount.ptk.interval = s.ptk.interval := by
  rcases s.reverseCount_cases with ⟨-, ht⟩ | ⟨-, -, ht⟩ | ⟨-, -, ⟨-, ht⟩ | ⟨h0, hr, ht⟩⟩
  · rw [ht]; exact ⟨rfl, rfl⟩
  · rw [ht]; exact ⟨rfl, rfl⟩
  · rw [ht]; exact ⟨rfl, rfl⟩
  · rw [ht, State.rewind_ptk] at h
    have hsame : s.ptk.tick - 1 = s.ptk.high := h
    omega

/-! ## A rewind in a run -/

/-- Row counts turn on the lanes, the triggers, the run state and framing alone. -/
theorem State.isShortRows_of_same {s t : State} (hlanes : t.lanes = s.lanes) (htru : t.tru = s.tru) (hrnc : t.rnc = s.rnc)
    (hfrt : t.frt = s.frt) {high : Int} {f : OpenFrame} {r : Int} (h : s.isShortRows high f r) : t.isShortRows high f r := by
  have heffective (l : Fin 8) : t.effective high l = s.effective high l := by
    unfold State.effective State.progress State.unfinished
    rw [hlanes, htru, hrnc, hfrt]
  unfold State.isShortRows at h ⊢
  simpa only [heffective, hlanes] using h

/-- A count of short closes turns on the frame counters and the two sources alone. -/
theorem State.countsShorts_of_frames {s s' t u : State} {rows : List Int} (h : s.countsShorts t rows) (hu : u.ntu = t.ntu)
    (hframes : s'.ntu.counters.frames = s.ntu.counters.frames)
    (hshort : maskHas s'.ntu.pending .frameShort = maskHas s.ntu.pending .frameShort)
    (hdropped : maskHas s'.ntu.pending .frameDropped = maskHas s.ntu.pending .frameDropped) : s'.countsShorts u rows := by
  unfold State.countsShorts at h ⊢
  rw [hu, hframes, hshort, hdropped]
  exact h

theorem State.afterMotion_pending (s : State) (line : EncLine) {x : Source} (h : x ≠ .motion) :
    maskHas (s.afterMotion line).ntu.pending x = maskHas s.ntu.pending x := by
  unfold State.afterMotion State.moved
  split
  · rfl
  · rw [State.raise_pending]; simp [h]

/-- A rewind in a run, seen from a state that differs from the one it found in the Position Tracker and in sources that are neither
FRAME_SHORT nor FRAME_DROPPED. -/
theorem State.rewind_closes {s u : State} (haside : s.AsideFromPosition u) (hrnc : u.rnc = s.rnc)
    (hframes : u.ntu.counters.frames = s.ntu.counters.frames)
    (hshort : maskHas u.ntu.pending .frameShort = maskHas s.ntu.pending .frameShort)
    (hdropped : maskHas u.ntu.pending .frameDropped = maskHas s.ntu.pending .frameDropped)
    (hbook : u.book = s.book) (hhigh : u.ptk.high = s.ptk.high) (hrun : s.rnc.runState ≠ .config) (lead : Bool) :
    (u.rewind.settle lead).frt = { s.frt with openList := [], state := .seeking, lastBoundary := none, rewindHold := true }
      ∧ (∀ rows, List.Forall₂ (s.isShortRows s.ptk.high) s.frt.openList rows → s.countsShorts (u.rewind.settle lead) rows)
      ∧ (s.framesOk → (∀ f ∈ s.frt.openList, s.shortCloses (u.rewind.settle lead) .shortRewind f)
          ∧ s.onlyCloses (u.rewind.settle lead) s.frt.openList) := by
  obtain ⟨htru, hlanes, hfrt, hslm, -, hdle⟩ := haside
  obtain ⟨vtru, vlanes, vfrt, vslm, -, vdle, vrnc, vframes⟩ := u.rewound_frame
  have hrewind : u.rewind = (u.rewound.rewindFrames s.ptk.high).readinessTest := by
    rw [State.rewind_eq, if_neg (by rw [hrnc]; exact hrun), hhigh]
    exact State.progressed_of_empty (by rw [State.rewindFrames_frt])
  have hrows {f : OpenFrame} {r : Int} (h : s.isShortRows s.ptk.high f r) : u.rewound.isShortRows s.ptk.high f r :=
    State.isShortRows_of_same (vlanes.trans hlanes) (vtru.trans htru) (vrnc.trans hrnc) (vfrt.trans hfrt) h
  have hopen : u.rewound.frt.openList = s.frt.openList := by rw [vfrt, hfrt]
  have hslot (i : Nat) : u.rewound.slot i = s.slot i := by unfold State.slot; rw [vslm, hslm]
  rw [hrewind]
  refine ⟨?_, fun rows hlist => ?_, fun hok => ?_⟩
  · simp only [State.settle_frame, State.readinessTest_frame, State.rewindFrames_frt]
    rw [vfrt, hfrt]
  · have hcounts : u.rewound.countsShorts (u.rewound.rewindFrames s.ptk.high) rows := by
      have h := u.rewound.shortCloseAll_counts s.ptk.high .shortRewind
      rw [flatMap_shortRows (rows := rows) (by rw [hopen]; exact hlist.imp fun _ _ => hrows)] at h
      exact State.countsShorts_of_ntu h rfl rfl
    refine State.countsShorts_of_frames hcounts (by simp) (vframes.trans hframes).symm ?_ ?_
    · rw [State.rewound_pending, hshort]; simp
    · rw [State.rewound_pending, hdropped]; simp
  · have hok' : u.rewound.framesOk := State.framesOk_of_book (u.rewound_book.trans hbook) hok
    obtain ⟨-, hclosed⟩ := State.rewindFrames_closes hok' s.ptk.high
    rw [hopen] at hclosed
    have hready := (SlotsReady.of_readinessTest (u.rewound.rewindFrames s.ptk.high)).stand (.settle _ lead)
    refine ⟨fun f hf r hr => ?_, ?_⟩
    · rw [← hslot]; exact hclosed.shortCloses_ready hready hf (hrows hr)
    · have h := hclosed.onlyCloses_ready hready
      unfold State.onlyCloses at h ⊢
      simpa only [hslot, vdle, hdle] using h

/-- Settles O32: the cases of a reverse count, after the decoder and the motion logic, and the rewind. -/
theorem reverseCountsBorrowAndRewind : Obligations.ReverseCountsBorrowAndRewind := by
  intro line s hs hreverse
  have hticks := (s.afterMotion line).reverseCount_ticks
  have hwithin := (s.afterMotion line).reverseCount_within
  have hbeyond := (s.afterMotion line).reverseCount_beyond
  have hborrows := (s.afterMotion line).reverseCount_borrows
  have hlends := (s.afterMotion line).reverseCount_lends
  have hrewinds := (s.afterMotion line).reverseCount_rewinds
  have haside := (s.afterMotion line).reverseCount_aside
  have hinterval := (s.afterMotion line).reverseCount_interval
  obtain ⟨kscale, kacc, ktick, khigh, ktimer, kinterval, kedges⟩ := s.afterMotion_readings line
  obtain ⟨-, -, -, htru, hlanes, hfrt, hslm, hlayout, hdle, hrnc, -, hcounters⟩ := s.afterMotion_frame line
  simp only [kscale, kacc, ktick, khigh, ktimer, kinterval, kedges, hcounters, hrnc]
    at hticks hwithin hbeyond hborrows hrewinds hlends haside hinterval
  refine ⟨_, exec_count line hs, ?_⟩
  generalize (decide (s.rnc.runState ≠ .config ∧ s.ptk.high < (s.takeCount line).ptk.high) || s.progressMoved (s.takeCount line)) = lead
  rw [State.takeCount_reverse hreverse]
  refine ⟨by simpa using hticks.1, by simpa using hticks.2, fun h => ?_, fun h hmin => ?_, fun h hmin => ⟨?_, ?_, fun hlimit => ?_,
    fun h0 hlimit => ?_⟩, by simp, by simp, by simp, by simpa using hinterval, fun h => ?_⟩
  · simp only [State.settle_frame, hwithin h]
    exact ⟨trivial, trivial, trivial, hcounters⟩
  · simp only [State.settle_frame, hbeyond h hmin]
    exact ⟨kacc, ktick, khigh, congrArg (fun c : Counters => min 4294967295 (c.position.encoderErrors + 1)) hcounters⟩
  · simpa using (hlends h hmin).1
  · simpa using (hlends h hmin).2
  · simp only [State.settle_frame, hborrows h hmin hlimit]
    exact ⟨khigh, congrArg (fun c : Counters => c.position.rewinds) hcounters⟩
  · rw [hrewinds h hmin h0 hlimit]
    obtain ⟨hcount, hraised⟩ := (s.afterMotion line).borrowed.rewind_counts
    have haside' : s.AsideFromPosition (s.afterMotion line).borrowed := ⟨htru, hlanes, hfrt, hslm, hlayout, hdle⟩
    simp only [State.settle_frame, State.rewind_ptk, hcount]
    refine ⟨congrArg (· - 1) ktick, trivial, trivial,
      congrArg (fun c : Counters => min 4294967295 (c.position.rewinds + 1)) hcounters, hraised, fun hrun => ?_⟩
    have hcloses := State.rewind_closes haside' hrnc (congrArg Counters.frames hcounters) (s.afterMotion_pending line (by decide))
      (s.afterMotion_pending line (by decide)) (State.afterMotion_book s line) khigh hrun lead
    simpa only [State.settle_frame] using hcloses
  · obtain ⟨-, -, h3, h4, -, h6⟩ := haside (by simpa using h)
    simp only [State.settle_frame]
    exact ⟨h3.trans hfrt, h4.trans hslm, State.sameDelivery_settle (State.sameDelivery_of_dle (h6.trans hdle)) _⟩

end Sys2Proof.Machine

/-! # A FRAME_END that crosses a FRAME_OPEN -/

namespace Sys2Proof.Machine

/-- A CLOSED frame of one pending reread, owed by route 0 of port B. Its record is PENDING while port B transmits its FRAME_OPEN, and port A
transmits a FRAME_END of the same route and frame: nothing in the agreement of frames, slots and records says of a FRAME_END that the
record is OPENED, or that the route is the port's. -/
def crossed : State :=
  { State.reset with
    pending := [.frameEndSent .a],
    rnc := { Rnc.reset with runState := .running },
    slm := { State.reset.slm with
      allocCounter := 1,
      slots := [{ Slot.empty with state := .closed, alloc := 1, outstanding := [0], pendingRereads := 1 }] },
    dle := { State.reset.dle with
      routes := State.reset.dle.routes.set 0 { State.reset.dle.routes.get 0 with port := .b },
      records := State.reset.dle.records.set 0
        [{ slot := 0, alloc := 1, state := .pending, plan := none, opening := none, cursor := { band := 0, index := 0, row := 0 },
           tileOpen := false, span := none, revoke := false }] },
    ports := {
      a := { HostPort.reset with link := .up, tx := some { source := .frameEnd 0 1 false, packet := restPacket } },
      b := { HostPort.reset with link := .up, tx := some { source := .frameOpen 0 1, packet := restPacket } } } }

theorem crossed_framesOk : crossed.allocOk ∧ crossed.framesOk := by decide +kernel

/-- Once the FRAME_END is sent the record is DONE, and port B still transmits its FRAME_OPEN. -/
theorem step_crossed : ∃ t : State, step crossed = .next t
    ∧ (t.dle.records.get 0).map (fun d => (d.alloc, d.state)) = [(1, .done)] ∧ t.ports.b.sendingOpen 0 1 = true :=
  ⟨_, rfl, by decide +kernel, by decide +kernel⟩

/-- Refutes O55: the agreement is no invariant of every step, since it does not say what a FRAME_END in transmission needs. In `crossed` it
holds; the FRAME_END that port A has sent makes the record DONE, while port B's FRAME_OPEN of it needs it PENDING. -/
theorem not_storeAndAllocationsStayInOrder : ¬ Obligations.StoreAndAllocationsStayInOrder := by
  intro h
  obtain ⟨t, hstep, hrecords, hopen⟩ := step_crossed
  obtain ⟨halloc, hframes⟩ := crossed_framesOk
  obtain ⟨-, -, -, -, -, -, hsending⟩ := (h crossed t hstep).2.2 halloc hframes
  obtain ⟨d, hd, hcharge⟩ : ∃ d ∈ t.dle.records.get 0, (d.alloc, d.state) = (1, RecordState.done) :=
    List.mem_map.mp (by rw [hrecords]; exact List.mem_singleton_self _)
  obtain ⟨hone, hdone⟩ := Prod.mk.inj hcharge
  have hpending := (hsending 0 d hd (by rw [hone]; exact hopen)).1
  exact RecordState.noConfusion (hdone.symm.trans hpending)

end Sys2Proof.Machine

/-! # RETAIN and RELEASE (R97, R98) -/

namespace Sys2Proof.Machine

section Owners

variable {s : State} {c : InPacket} {i : Nat}

theorem retainOwner_found (hi : s.lookupCapture (u32 c.payload 0) = some i) :
    retainOwner c s =
      if (s.slot i).state = .held ∨ (s.slot i).retain then .accept s []
      else if Config.retainLimit ≤ s.retainedCount then .refuse .limit
      else .accept (s.setSlot i fun x => { x with retain := true }) [] := by
  simp only [retainOwner, hi]

theorem releaseOwner_found (hi : s.lookupHeld (u32 c.payload 0) = some i) :
    releaseOwner c s = match (s.slot i).state with
      | .free => .accept s []
      | .opened => .accept (s.setSlot i fun x => { x with retain := false }) []
      | .closed => .accept ((s.setSlot i fun x => { x with retain := false }).freeingTest i) []
      | .held =>
        if (s.slot i).pendingRereads = 0 then .accept (s.freeSlot i) []
        else .accept (s.setSlot i fun x => { x with releasePending := true }) [] := by
  cases h : (s.slot i).state <;> simp only [releaseOwner, hi, h]

end Owners

/-- A CLOSED slot whose retain flag is cleared while something of it is outstanding stays. -/
theorem State.releaseClosed_stays {s : State} {i : Nat} (hc : (s.slot i).state = .closed)
    (ho : ¬ ((s.slot i).outstanding = [] ∧ (s.slot i).pendingRereads = 0)) :
    (s.setSlot i fun x => { x with retain := false }).freeingTest i = s.setSlot i fun x => { x with retain := false } := by
  have hslot := s.setSlot_slot_of_ne_free (i := i) (by rw [hc]; decide) (fun x => { x with retain := false }) i
  rw [if_pos rfl] at hslot
  refine if_neg fun h => ho ?_
  rw [hslot] at h
  exact h.2

/-- A CLOSED slot with nothing outstanding is freed once its retain flag is cleared. -/
theorem State.releaseClosed_takes {s : State} {i : Nat} (hc : (s.slot i).state = .closed) (ho : (s.slot i).outstanding = [])
    (hp : (s.slot i).pendingRereads = 0) :
    Takes s ((s.setSlot i fun x => { x with retain := false }).freeingTest i) i Slot.empty := by
  have hne : (s.slot i).state ≠ .free := by rw [hc]; decide
  have hset := s.setSlot_takes hne (fun x => { x with retain := false }) hne
  have htest := State.freeingTest_takes (s.setSlot i fun x => { x with retain := false }) (i := i) (by rw [hset.slot_same]; exact hne)
  have hempty : ({ s.slot i with retain := false } : Slot).tested = Slot.empty := by
    unfold Slot.tested
    rw [if_pos ⟨hc, ho, hp⟩]
    rfl
  rw [hset.slot_same, hempty] at htest
  exact hset.trans htest hne rfl

/-- Settles O28: the rows of the two tables, by the state of the slot found. -/
theorem retainAndReleaseFollowTheirTables : Obligations.RetainAndReleaseFollowTheirTables := by
  intro s p c rest htake
  refine ⟨fun hp => ?retain, fun hp => ?release⟩
  case retain =>
    have hr : s.firstRefusal p c = none := State.admits_any (row := ⟨codeRetain, 4, .any, true⟩) (by decide) rfl (fun _ => rfl) hp
    refine ⟨fun hnone => exec_refuse rfl htake hp hr ?_, fun i hi => ?_⟩
    · have hnone' : (s.took p rest).lookupCapture (u32 c.payload 0) = none := hnone
      simp only [retainOwner, hnone']
    · have howner := retainOwner_found (s := s.took p rest) hi
      refine ⟨fun h => exec_accept rfl htake hp hr (howner.trans (if_pos h)), fun hheld hretain => ?_⟩
      have hno : ¬ ((s.slot i).state = .held ∨ (s.slot i).retain = true) := by simp [hheld, hretain]
      have howner := howner.trans (if_neg hno)
      exact ⟨fun hfull => exec_refuse rfl htake hp hr (howner.trans (if_pos hfull)),
        fun hroom => exec_accept rfl htake hp hr (howner.trans (if_neg (Nat.not_le.mpr hroom)))⟩
  case release =>
    have hr : s.firstRefusal p c = none := State.admits_any (row := ⟨codeRelease, 4, .any, true⟩) (by decide) rfl (fun _ => rfl) hp
    refine ⟨fun hnone => exec_refuse rfl htake hp hr ?_, fun i hi => ?_⟩
    · have hnone' : (s.took p rest).lookupHeld (u32 c.payload 0) = none := hnone
      simp only [releaseOwner, hnone']
    intro x
    have howner := releaseOwner_found (s := s.took p rest) hi
    have hslot : (s.took p rest).slot i = x := rfl
    rw [hslot] at howner
    refine ⟨fun h => ?stays, fun h => ?freed, fun hheld hrereads => ?waits⟩
    case stays =>
      rcases h with hopen | ⟨hclosed, hout⟩
      · rw [hopen] at howner
        exact exec_accept rfl htake hp hr howner
      · rw [hclosed] at howner
        refine exec_accept rfl htake hp hr (howner.trans ?_)
        rw [State.releaseClosed_stays (s := s.took p rest) hclosed hout]
    case freed =>
      rcases h with ⟨hclosed, hout, hrereads⟩ | ⟨hheld, hrereads⟩
      · rw [hclosed] at howner
        have htakes := State.releaseClosed_takes (s := s.took p rest) hclosed hout hrereads
        refine ⟨_, exec_accept rfl htake hp hr howner, htakes.slot_same, fun j hj => htakes.slot_ne hj, htakes.records, ?_, htakes.counter,
          htakes.frt, htakes.rnc, ?_, ?_⟩ <;> simp
      · rw [hheld] at howner
        have htakes := State.freeSlot_takes (s.took p rest) i
        refine ⟨_, exec_accept rfl htake hp hr (howner.trans (if_pos hrereads)), htakes.slot_same, fun j hj => htakes.slot_ne hj,
          htakes.records, ?_, htakes.counter, htakes.frt, htakes.rnc, ?_, ?_⟩ <;> simp
    case waits =>
      rw [hheld] at howner
      exact exec_accept rfl htake hp hr (howner.trans (if_neg (by omega)))

end Sys2Proof.Machine

/-! # Records that end, and what their slots become (R94, R125, R137)

A step that ends records one after another, be it REVOKE, a RUN_STOP or the loss of a link, is told once for all of them: which records
change and how, what is left outstanding of each slot, and that the records of a slot freed leave. -/

namespace Sys2Proof.Machine

/-- A record once it is final. -/
def Delivery.ended (d : Delivery) (x : RecordState) : Delivery :=
  { d with state := x, opening := none, revoke := false, tileOpen := false, span := none }

theorem State.finalize_eq (s : State) (r : Fin 8) (d : Delivery) (x : RecordState) :
    s.finalize r d x = (s.setRecord r d.alloc fun y => y.ended x).reportFinal r d.slot := rfl

/-! ## One slot -/

/-- A slot that no route leaves stands. -/
theorem Slot.released_self (x : Slot) : x.released x.outstanding 0 = x := by
  simp [Slot.released]

/-- A slot that routes leave takes the freeing test. -/
theorem Slot.released_of_ne {x : Slot} {left : List (Fin 8)} (h : left ≠ x.outstanding) :
    x.released left 0 = ({ x with outstanding := left } : Slot).tested := by
  unfold Slot.released Slot.tested
  simp [h]

/-- A slot that some route is still to leave has lost the others alone. -/
theorem Slot.released_of_mem {x : Slot} {left : List (Fin 8)} {r : Fin 8} (h : r ∈ left) :
    x.released left 0 = { x with outstanding := left } := by
  have hne : left ≠ [] := List.ne_nil_of_mem h
  simp [Slot.released, hne]

theorem State.freeingTest_slot_same (s : State) (i : Nat) : (s.freeingTest i).slot i = (s.slot i).tested := by
  by_cases h : (s.slot i).state = .free
  · have hno : ¬ ((s.slot i).state = .closed ∧ (s.slot i).outstanding = [] ∧ (s.slot i).pendingRereads = 0) := by simp [h]
    rw [Slot.tested, if_neg hno, State.freeingTest, if_neg hno]
  · exact (s.freeingTest_takes h).slot_same

/-- A route's record of a slot has become final: the route leaves, and the freeing test follows. -/
theorem State.reportFinal_takes (s : State) (r : Fin 8) {i : Nat} (h : (s.slot i).state ≠ .free) :
    Takes s (s.reportFinal r i) i ({ s.slot i with outstanding := (s.slot i).outstanding.filter (· ≠ r) } : Slot).tested := by
  have hset := s.setSlot_takes h (fun x => { x with outstanding := x.outstanding.filter (· ≠ r) }) h
  have htest := State.freeingTest_takes (s.setSlot i fun x => { x with outstanding := x.outstanding.filter (· ≠ r) }) (i := i)
    (by rw [hset.slot_same]; exact h)
  rw [hset.slot_same] at htest
  exact hset.trans htest h rfl

theorem State.setRecord_slot (s : State) (r : Fin 8) (a : Nat) (f : Delivery → Delivery) (i : Nat) :
    (s.setRecord r a f).slot i = s.slot i := by simp [State.slot]

/-! ## What the agreement says of records and slots -/

section Agreement

variable {s : State} (hok : s.framesOk)
include hok

theorem State.framesOk_stored {r : Fin 8} {d : Delivery} (hd : d ∈ s.dle.records.get r) :
    (s.slot d.slot).alloc = d.alloc ∧ (s.slot d.slot).state ≠ .free :=
  (s.framesOk_iff.mp hok).stored r d.charge (List.mem_map_of_mem hd)

theorem State.framesOk_owed {r : Fin 8} {d : Delivery} (hd : d ∈ s.dle.records.get r) (h : d.state.final = false) :
    r ∈ (s.slot d.slot).outstanding ∧ (s.slot d.slot).state ≠ .held :=
  (s.framesOk_iff.mp hok).owed r d.charge (List.mem_map_of_mem hd) h

theorem State.framesOk_own {i j : Nat} (hi : (s.slot i).state ≠ .free) (hj : (s.slot j).state ≠ .free)
    (h : (s.slot i).alloc = (s.slot j).alloc) : i = j := (s.framesOk_iff.mp hok).own i j hi hj h

theorem State.framesOk_single {r : Fin 8} {d e : Delivery} (hd : d ∈ s.dle.records.get r) (he : e ∈ s.dle.records.get r)
    (h : d.alloc = e.alloc) : d = e := by
  have hnodup : ((s.dle.records.get r).map Delivery.alloc).Nodup := by
    have := (s.framesOk_iff.mp hok).single r
    simpa [State.ledger, Delivery.charge, Function.comp_def] using this
  exact List.inj_on_of_nodup_map hnodup hd he h

end Agreement

/-! ## Many records -/

/-- Whether a route leaves a slot as records change: one of the route's records of it, not final before, is final after. -/
def State.leaves (s : State) (g : Fin 8 → Delivery → Delivery) (i : Nat) (r : Fin 8) : Bool :=
  (s.dle.records.get r).any fun d => d.slot = i && !d.state.final && (g r d).state.final

/-- The routes left outstanding of a slot as records change. -/
def State.left (s : State) (g : Fin 8 → Delivery → Delivery) (i : Nat) : List (Fin 8) :=
  (s.slot i).outstanding.filter fun r => !s.leaves g i r

/-- A change of records that keeps slot and frame of each, and leaves a final one final. -/
structure Changes (g : Fin 8 → Delivery → Delivery) : Prop where
  slot : ∀ r d, (g r d).slot = d.slot
  alloc : ∀ r d, (g r d).alloc = d.alloc
  final : ∀ r d, d.state.final = true → (g r d).state.final = true

/-- From s to u the records change as given, the slots whose records have become final are released, and the records of the slots freed
leave. -/
structure Ends (g : Fin 8 → Delivery → Delivery) (s u : State) : Prop where
  changes : Changes g
  records : ∀ r, u.dle.records.get r = ((s.dle.records.get r).map (g r)).filter fun d => (u.slot d.slot).state ≠ .free
  slot : ∀ i, (s.slot i).state ≠ .free → u.slot i = (s.slot i).released (s.left g i) 0
  free : ∀ i, (s.slot i).state = .free → u.slot i = s.slot i

/-- A change made to one record more. -/
def alsoAt (g : Fin 8 → Delivery → Delivery) (r : Fin 8) (alloc : Nat) (f : Delivery → Delivery) : Fin 8 → Delivery → Delivery :=
  fun q d => if q = r ∧ d.alloc = alloc then f (g q d) else g q d

section Ends

variable {s u : State} {g : Fin 8 → Delivery → Delivery}

theorem State.left_of_no_leave {i : Nat} (h : ∀ r, s.leaves g i r = false) : s.left g i = (s.slot i).outstanding := by
  unfold State.left
  simp [h]

theorem Ends.refl (s : State) (hok : s.framesOk) : Ends (fun _ d => d) s s where
  changes := ⟨fun _ _ => rfl, fun _ _ => rfl, fun _ _ h => h⟩
  records r := by
    rw [List.map_id', List.filter_eq_self.mpr]
    intro d hd
    exact decide_eq_true ((s.framesOk_iff.mp hok).stored r d.charge (List.mem_map_of_mem hd)).2
  slot i _ := by
    have hno (r : Fin 8) : s.leaves (fun _ d => d) i r = false := by
      unfold State.leaves
      rw [List.any_eq_false]
      intro d _
      cases d.state.final <;> simp
    rw [State.left_of_no_leave hno, Slot.released_self]
  free _ _ := rfl

/-- What is said of a change holds of any that agrees with it on the records there are. -/
theorem Ends.congr {g' : Fin 8 → Delivery → Delivery} (h : Ends g s u) (hg' : Changes g')
    (heq : ∀ r, ∀ d ∈ s.dle.records.get r, g' r d = g r d) : Ends g' s u where
  changes := hg'
  records r := by rw [h.records, List.map_congr_left (heq r)]
  slot i hi := by
    have hleaves (r : Fin 8) : s.leaves g' i r = s.leaves g i r := by
      unfold State.leaves
      rw [Bool.eq_iff_iff, List.any_eq_true, List.any_eq_true]
      exact ⟨fun ⟨d, hd, hx⟩ => ⟨d, hd, by rwa [← heq r d hd]⟩, fun ⟨d, hd, hx⟩ => ⟨d, hd, by rwa [heq r d hd]⟩⟩
    rw [h.slot i hi]
    unfold State.left
    simp only [hleaves]
  free := h.free

theorem Changes.alsoAt (hg : Changes g) (r : Fin 8) (alloc : Nat) {f : Delivery → Delivery} (hslot : ∀ d, (f d).slot = d.slot)
    (halloc : ∀ d, (f d).alloc = d.alloc) (hfinal : ∀ d, d.state.final = true → (f d).state.final = true) :
    Changes (Sys2Proof.Machine.alsoAt g r alloc f) := by
  refine ⟨fun q d => ?_, fun q d => ?_, fun q d hd => ?_⟩ <;> unfold Sys2Proof.Machine.alsoAt <;> split
  · rw [hslot, hg.slot]
  · rw [hg.slot]
  · rw [halloc, hg.alloc]
  · rw [hg.alloc]
  · exact hfinal _ (hg.final q d hd)
  · exact hg.final q d hd

/-- The records after one more of them has changed, before any leaves. -/
theorem Ends.setRecord_records (h : Ends g s u) (r : Fin 8) (alloc : Nat) {f : Delivery → Delivery} (hslot : ∀ d, (f d).slot = d.slot)
    (q : Fin 8) : (u.setRecord r alloc f).dle.records.get q
      = ((s.dle.records.get q).map (alsoAt g r alloc f q)).filter fun d => (u.slot d.slot).state ≠ .free := by
  rw [State.setRecord_get]
  have hmap (ds : List Delivery) (k : Delivery → Delivery) (hk : ∀ d, (k d).slot = d.slot) :
      (ds.filter fun d => (u.slot d.slot).state ≠ .free).map k = (ds.map k).filter fun d => (u.slot d.slot).state ≠ .free := by
    rw [List.filter_map]
    simp only [Function.comp_def, hk]
  split
  · next hq =>
    rw [hq, h.records, hmap _ _ fun d => by split <;> simp [hslot], List.map_map]
    congr 1
    refine List.map_congr_left fun d _ => ?_
    simp only [Function.comp_def, alsoAt, h.changes.alloc, true_and]
  · next hq =>
    rw [h.records]
    congr 1
    refine List.map_congr_left fun d _ => ?_
    simp only [alsoAt, hq, false_and, if_false]

/-- A record changes without becoming final. -/
theorem Ends.setRecord (h : Ends g s u) (r : Fin 8) (alloc : Nat) {f : Delivery → Delivery} (hslot : ∀ d, (f d).slot = d.slot)
    (halloc : ∀ d, (f d).alloc = d.alloc) (hstate : ∀ d, (f d).state = d.state) : Ends (alsoAt g r alloc f) s (u.setRecord r alloc f) where
  changes := h.changes.alsoAt r alloc hslot halloc fun d hd => by rwa [hstate]
  records q := by
    rw [h.setRecord_records r alloc hslot]
    simp only [State.setRecord_slot]
  slot i hi := by
    have hleaves (q : Fin 8) : s.leaves (alsoAt g r alloc f) i q = s.leaves g i q := by
      unfold State.leaves
      congr 1
      funext d
      have : (alsoAt g r alloc f q d).state = (g q d).state := by
        unfold alsoAt
        split
        · exact hstate _
        · rfl
      rw [this]
    rw [State.setRecord_slot, h.slot i hi]
    unfold State.left
    simp only [hleaves]
  free i hi := by rw [State.setRecord_slot]; exact h.free i hi

/-- A route leaves the slot of a record that ends, and no other. -/
theorem State.leaves_alsoAt (hok : s.framesOk) {r : Fin 8} {d : Delivery} (hd : d ∈ s.dle.records.get r)
    (hnot : d.state.final = false) {x : RecordState} (hx : x.final = true) (i : Nat) (q : Fin 8) :
    s.leaves (alsoAt g r d.alloc fun y => y.ended x) i q = (s.leaves g i q || decide (i = d.slot ∧ q = r)) := by
  unfold State.leaves
  rw [Bool.eq_iff_iff, Bool.or_eq_true, List.any_eq_true, List.any_eq_true]
  constructor
  · rintro ⟨e, he, hcond⟩
    by_cases hat : q = r ∧ e.alloc = d.alloc
    · obtain ⟨rfl, hea⟩ := hat
      simp only [Bool.and_eq_true, decide_eq_true_eq] at hcond
      rw [State.framesOk_single hok he hd hea] at hcond
      exact .inr (decide_eq_true ⟨hcond.1.1.symm, rfl⟩)
    · rw [alsoAt, if_neg hat] at hcond
      exact .inl ⟨e, he, hcond⟩
  · rintro (⟨e, he, hcond⟩ | hat)
    · refine ⟨e, he, ?_⟩
      unfold alsoAt
      split
      · simp only [Bool.and_eq_true] at hcond ⊢
        exact ⟨hcond.1, hx⟩
      · exact hcond
    · obtain ⟨rfl, rfl⟩ := of_decide_eq_true hat
      exact ⟨d, hd, by simp [alsoAt, hnot, Delivery.ended, hx]⟩

/-- A record of an earlier state that is not final yet is owed by its slot, which has lost other routes alone. -/
theorem Ends.owed (hok : s.framesOk) (h : Ends g s u) {r : Fin 8} {d : Delivery} (hd : d ∈ s.dle.records.get r)
    (hnot : d.state.final = false) (hopen : (g r d).state.final = false) :
    r ∈ s.left g d.slot ∧ u.slot d.slot = { s.slot d.slot with outstanding := s.left g d.slot } := by
  obtain ⟨ha, hne⟩ := State.framesOk_stored hok hd
  have hmem : r ∈ s.left g d.slot := by
    refine List.mem_filter.mpr ⟨(State.framesOk_owed hok hd hnot).1, ?_⟩
    rw [Bool.not_eq_true', State.leaves, List.any_eq_false]
    intro e he hcond
    simp only [Bool.and_eq_true, decide_eq_true_eq, Bool.not_eq_true'] at hcond
    obtain ⟨⟨hes, -⟩, hfin⟩ := hcond
    rw [State.framesOk_single hok he hd (by rw [← (State.framesOk_stored hok he).1, hes, ha]), hopen] at hfin
    cases hfin
  exact ⟨hmem, by rw [h.slot _ hne, Slot.released_of_mem hmem]⟩

/-- A record that is not final ends. -/
theorem Ends.finalize (hok : s.framesOk) (h : Ends g s u) {r : Fin 8} {d : Delivery} (hd : d ∈ u.dle.records.get r)
    (hopen : d.state.final = false) {x : RecordState} (hx : x.final = true) :
    Ends (alsoAt g r d.alloc fun y => y.ended x) s (u.finalize r d x) := by
  rw [h.records, List.mem_filter, List.mem_map] at hd
  obtain ⟨⟨d₀, hd₀, rfl⟩, hin⟩ := hd
  have hslot₀ := h.changes.slot r d₀
  have halloc₀ := h.changes.alloc r d₀
  obtain ⟨ha, hne⟩ := State.framesOk_stored hok hd₀
  have hnot : d₀.state.final = false := by
    by_contra hf
    rw [h.changes.final r d₀ (by simpa using hf)] at hopen
    cases hopen
  have howed := (State.framesOk_owed hok hd₀ hnot).1
  obtain ⟨hmem, hu⟩ := h.owed hok hd₀ hnot hopen
  have htakes := State.reportFinal_takes (u.setRecord r d₀.alloc fun y => y.ended x) r (i := d₀.slot)
    (by rw [State.setRecord_slot, hu]; exact hne)
  rw [State.finalize_eq, hslot₀, halloc₀]
  rw [State.setRecord_slot, hu] at htakes
  have hleaves := State.leaves_alsoAt (g := g) hok hd₀ hnot hx
  have hleft : s.left (alsoAt g r d₀.alloc fun y => y.ended x) d₀.slot = (s.left g d₀.slot).filter (· ≠ r) := by
    unfold State.left
    rw [List.filter_filter]
    refine List.filter_congr fun q _ => ?_
    rw [hleaves d₀.slot q]
    by_cases hq : q = r <;> simp [hq]
  have hreleased : (s.slot d₀.slot).released (s.left (alsoAt g r d₀.alloc fun y => y.ended x) d₀.slot) 0
      = ({ s.slot d₀.slot with outstanding := (s.left g d₀.slot).filter (· ≠ r) } : Slot).tested := by
    rw [hleft]
    refine Slot.released_of_ne fun heq => ?_
    have : r ∈ (s.left g d₀.slot).filter (· ≠ r) := heq ▸ howed
    simp at this
  have htakes : Takes (u.setRecord r d₀.alloc fun y => y.ended x)
      ((u.setRecord r d₀.alloc fun y => y.ended x).reportFinal r d₀.slot) d₀.slot
      ((s.slot d₀.slot).released (s.left (alsoAt g r d₀.alloc fun y => y.ended x) d₀.slot) 0) := by
    rw [hreleased]; exact htakes
  have hother (i : Nat) (hi : i ≠ d₀.slot) :
      s.left (alsoAt g r d₀.alloc fun y => y.ended x) i = s.left g i := by
    unfold State.left
    refine List.filter_congr fun q _ => ?_
    rw [hleaves i q]
    simp [hi]
  refine ⟨h.changes.alsoAt r d₀.alloc (fun _ => rfl) (fun _ => rfl) fun _ _ => hx, fun q => ?_, fun i hi => ?_, fun i hi => ?_⟩
  · have hchanged := h.setRecord_records r d₀.alloc (f := fun y => y.ended x) (fun _ => rfl) q
    rw [htakes.records, hchanged, State.setRecord_slot, hu]
    have hstate (i : Nat) (hi : i ≠ d₀.slot) : ((u.setRecord r d₀.alloc fun y => y.ended x).reportFinal r d₀.slot).slot i = u.slot i := by
      rw [htakes.slot_ne hi, State.setRecord_slot]
    have hcases : ∀ e ∈ (s.dle.records.get q).map (alsoAt g r d₀.alloc (fun y => y.ended x) q),
        e.slot = d₀.slot ∧ e.alloc = (s.slot d₀.slot).alloc ∨ e.slot ≠ d₀.slot ∧ e.alloc ≠ (s.slot d₀.slot).alloc := by
      intro e he
      obtain ⟨e₀, he₀, rfl⟩ := List.mem_map.mp he
      have hk := h.changes.alsoAt r d₀.alloc (f := fun y => y.ended x) (fun _ => rfl) (fun _ => rfl) fun _ _ => hx
      rw [hk.slot, hk.alloc]
      obtain ⟨hea, hes⟩ := State.framesOk_stored hok he₀
      by_cases hsame : e₀.slot = d₀.slot
      · exact .inl ⟨hsame, by rw [← hea, hsame]⟩
      · exact .inr ⟨hsame, fun heq => hsame (State.framesOk_own hok hes hne (by rw [hea, heq]))⟩
    split
    · next hfree =>
      rw [List.filter_filter]
      refine List.filter_congr fun e he => ?_
      rcases hcases e he with ⟨hs, ha'⟩ | ⟨hs, ha'⟩
      · rw [hs, htakes.slot_same, hfree]; simp [ha']
      · rw [hstate _ hs]; simp [ha']
    · next hfree =>
      refine List.filter_congr fun e he => ?_
      rcases hcases e he with ⟨hs, -⟩ | ⟨hs, -⟩
      · rw [hs, htakes.slot_same, hu, decide_eq_true hfree, decide_eq_true hne]
      · rw [hstate _ hs]
  · by_cases hid : i = d₀.slot
    · rw [hid, htakes.slot_same]
    · rw [htakes.slot_ne hid, State.setRecord_slot, h.slot i hi, hother i hid]
  · have hid : i ≠ d₀.slot := fun heq => hne (heq ▸ hi)
    rw [htakes.slot_ne hid, State.setRecord_slot]
    exact h.free i hi

end Ends

end Sys2Proof.Machine

/-! # REVOKE (R143, R144, R145) -/

namespace Sys2Proof.Machine

/-! ## What REVOKE makes of a record -/

/-- A record that is not final, once REVOKE has acted on its route. -/
def State.revokedTo (s : State) (r : Fin 8) (d : Delivery) : Delivery :=
  if d.state = .pending ∧ (s.ports.get (s.dle.routes.get r).port).sendingOpen r d.alloc = false then d.ended .revoked
  else if d.state = .opened ∧ (s.ports.get (s.dle.routes.get r).port).sendingEnd r d.alloc = true then d
  else { d with revoke := true }

/-- The change that REVOKE of a frame makes on some routes. -/
def State.revoking (s : State) (rs : List (Fin 8)) (alloc : Nat) (r : Fin 8) (d : Delivery) : Delivery :=
  if r ∈ rs ∧ d.alloc = alloc ∧ d.state.final = false then s.revokedTo r d else d

theorem State.revokedTo_slot (s : State) (r : Fin 8) (d : Delivery) :
    (s.revokedTo r d).slot = d.slot ∧ (s.revokedTo r d).alloc = d.alloc := by
  unfold State.revokedTo
  repeat' split
  all_goals exact ⟨rfl, rfl⟩

/-- Of the records that are not final REVOKE ends those PENDING with no FRAME_OPEN in transmission. -/
theorem State.revokedTo_final (s : State) (r : Fin 8) {d : Delivery} (h : d.state.final = false) :
    (s.revokedTo r d).state.final
      = decide (d.state = .pending ∧ (s.ports.get (s.dle.routes.get r).port).sendingOpen r d.alloc = false) := by
  unfold State.revokedTo
  split
  · next hp => simp [hp, Delivery.ended, RecordState.final]
  · next hp =>
    rw [decide_eq_false hp]
    split <;> exact h

theorem State.revoking_changes (s : State) (rs : List (Fin 8)) (alloc : Nat) : Changes (s.revoking rs alloc) := by
  refine ⟨fun r d => ?_, fun r d => ?_, fun r d hd => ?_⟩ <;> unfold State.revoking
  · split
    · exact (s.revokedTo_slot r d).1
    · rfl
  · split
    · exact (s.revokedTo_slot r d).2
    · rfl
  · rw [if_neg (by simp [hd])]
    exact hd

theorem State.revoking_of_not_mem (s : State) {rs : List (Fin 8)} (alloc : Nat) {r : Fin 8} (h : r ∉ rs) (d : Delivery) :
    s.revoking rs alloc r d = d := if_neg fun hd => h hd.1

theorem State.revoking_of_alloc (s : State) (rs : List (Fin 8)) {alloc : Nat} (r : Fin 8) {d : Delivery} (h : d.alloc ≠ alloc) :
    s.revoking rs alloc r d = d := if_neg fun hd => h hd.2.1

/-- One route more: its record of the frame changes, if it is not final. -/
theorem State.revoking_append {s : State} (hok : s.framesOk) {rs : List (Fin 8)} {alloc : Nat} {r : Fin 8} {d : Delivery}
    (hd : d ∈ s.dle.records.get r) (ha : d.alloc = alloc) {q : Fin 8} {e : Delivery} (he : e ∈ s.dle.records.get q) :
    s.revoking (rs ++ [r]) alloc q e
      = if q = r ∧ e.alloc = alloc then (if d.state.final = false then s.revokedTo r d else d) else s.revoking rs alloc q e := by
  split
  · next hat =>
    obtain ⟨rfl, hea⟩ := hat
    rw [State.framesOk_single hok he hd (hea.trans ha.symm), State.revoking]
    simp only [List.mem_append, List.mem_singleton, or_true, ha, true_and]
  · next hat =>
    unfold State.revoking
    have hmem : (q ∈ rs ++ [r] ∧ e.alloc = alloc ∧ e.state.final = false) ↔ (q ∈ rs ∧ e.alloc = alloc ∧ e.state.final = false) := by
      rw [List.mem_append, List.mem_singleton]
      exact ⟨fun h => ⟨h.1.resolve_right fun hq => hat ⟨hq, h.2.1⟩, h.2⟩, fun h => ⟨.inl h.1, h.2⟩⟩
    simp only [hmem]

/-! ## Route by route -/

theorem State.recordOf_spec {s : State} {r : Fin 8} {alloc : Nat} {d : Delivery} (h : s.recordOf r alloc = some d) :
    d ∈ s.dle.records.get r ∧ d.alloc = alloc :=
  ⟨List.mem_of_find?_eq_some h, by simpa using List.find?_some h⟩

/-- REVOKE on one route more. -/
theorem Ends.revokeOn {s u : State} (hok : s.framesOk) {rs : List (Fin 8)} {alloc : Nat} (h : Ends (s.revoking rs alloc) s u)
    (hports : u.ports = s.ports) (hroutes : u.dle.routes = s.dle.routes) {r : Fin 8} (hr : r ∉ rs) :
    Ends (s.revoking (rs ++ [r]) alloc) s (u.revokeOn alloc r) := by
  have hg' := s.revoking_changes (rs ++ [r]) alloc
  cases hrec : u.recordOf r alloc with
  | none =>
    have hsame : u.revokeOn alloc r = u := by simp only [State.revokeOn, hrec]
    rw [hsame]
    refine h.congr hg' fun q e he => ?_
    unfold State.revoking
    have hmem : (q ∈ rs ++ [r] ∧ e.alloc = alloc ∧ e.state.final = false) ↔ (q ∈ rs ∧ e.alloc = alloc ∧ e.state.final = false) := by
      rw [List.mem_append, List.mem_singleton]
      refine ⟨fun hx => ⟨hx.1.resolve_right fun hq => ?_, hx.2⟩, fun hx => ⟨.inl hx.1, hx.2⟩⟩
      rw [hq] at he
      have hstands := s.revoking_of_not_mem alloc hr e
      obtain ⟨-, hslot⟩ := h.owed hok he hx.2.2 (by rw [hstands]; exact hx.2.2)
      have hin : e ∈ u.dle.records.get r := by
        rw [h.records, List.mem_filter]
        exact ⟨List.mem_map.mpr ⟨e, he, hstands⟩, by rw [hslot]; exact decide_eq_true (State.framesOk_stored hok he).2⟩
      have hno := List.find?_eq_none.mp hrec e hin
      simp [hx.2.1] at hno
    simp only [hmem]
  | some d =>
    obtain ⟨hd, ha⟩ := State.recordOf_spec hrec
    have hd₀ : d ∈ s.dle.records.get r := by
      rw [h.records, List.mem_filter, List.mem_map] at hd
      obtain ⟨⟨e, he, rfl⟩, -⟩ := hd
      rwa [s.revoking_of_not_mem alloc hr]
    have hchange (f : Delivery → Delivery) (v : State) (hv : Ends (alsoAt (s.revoking rs alloc) r alloc f) s v)
        (hf : f d = if d.state.final = false then s.revokedTo r d else d) : Ends (s.revoking (rs ++ [r]) alloc) s v := by
      refine hv.congr hg' fun q e he => ?_
      rw [State.revoking_append hok hd₀ ha he, alsoAt]
      split
      · next hat =>
        obtain ⟨rfl, hea⟩ := hat
        rw [s.revoking_of_not_mem alloc hr, State.framesOk_single hok he hd₀ (hea.trans ha.symm), hf]
      · rfl
    have hstands (hf : d = if d.state.final = false then s.revokedTo r d else d) : Ends (s.revoking (rs ++ [r]) alloc) s u := by
      refine h.congr hg' fun q e he => ?_
      rw [State.revoking_append hok hd₀ ha he]
      split
      · next hat =>
        obtain ⟨rfl, hea⟩ := hat
        rw [s.revoking_of_not_mem alloc hr, State.framesOk_single hok he hd₀ (hea.trans ha.symm)]
        exact hf.symm
      · rfl
    have hflag := h.setRecord r alloc (f := fun y => { y with revoke := true }) (fun _ => rfl) (fun _ => rfl) (fun _ => rfl)
    unfold State.revokeOn
    simp only [hrec, hports, hroutes]
    cases hst : d.state with
    | pending =>
      simp only
      split
      · next hsend => exact hchange _ _ hflag (by simp [State.revokedTo, hst, ha, hsend, RecordState.final])
      · next hsend =>
        have hfin := h.finalize hok hd (by rw [hst]; rfl) (x := .revoked) rfl
        rw [ha] at hfin
        exact hchange _ _ hfin (by simp [State.revokedTo, hst, ha, hsend, RecordState.final])
    | opened =>
      simp only
      split
      · next hsend => exact hstands (by simp [State.revokedTo, hst, ha, hsend, RecordState.final])
      · next hsend => exact hchange _ _ hflag (by simp [State.revokedTo, hst, ha, hsend, RecordState.final])
    | done | revoked | skipped | aborted => exact hstands (by rw [hst]; rfl)

theorem Ends.revokeAll {s : State} (hok : s.framesOk) (alloc : Nat) (rs : List (Fin 8)) (done : List (Fin 8)) (u : State)
    (h : Ends (s.revoking done alloc) s u) (hports : u.ports = s.ports) (hroutes : u.dle.routes = s.dle.routes)
    (hnodup : (done ++ rs).Nodup) : Ends (s.revoking (done ++ rs) alloc) s (rs.foldl (fun t r => t.revokeOn alloc r) u) := by
  induction rs generalizing done u with
  | nil => rwa [List.append_nil]
  | cons r rs ih =>
    have hr : r ∉ done := fun hmem => (List.nodup_append.mp hnodup).2.2 r hmem r List.mem_cons_self rfl
    have hnext := ih (done ++ [r]) (u.revokeOn alloc r) (h.revokeOn hok hports hroutes hr) (by simp [hports]) (by simp [hroutes])
      (by rwa [List.append_assoc])
    rwa [List.append_assoc] at hnext

/-! ## The frame found (R89) -/

theorem State.newestHolding_spec {s : State} {frame i : Nat} {accept : SlotState → Bool} (h : s.newestHolding frame accept = some i) :
    accept (s.slot i).state = true := by
  have hall : ∀ x ∈ s.numbered.filter fun x => accept x.2.state && x.2.frame = frame, accept (s.slot x.1).state = true := by
    intro x hx
    obtain ⟨hmem, hcond⟩ := List.mem_filter.mp hx
    obtain ⟨y, hy, rfl⟩ := List.mem_map.mp hmem
    have hget := List.mem_zipIdx hy
    simp only [Bool.and_eq_true] at hcond
    rw [s.slot_eq_getElem (by omega)]
    simpa [hget.2.2] using hcond.1
  unfold State.newestHolding at h
  dsimp only at h
  split at h
  · cases h
  · next x xs heq =>
    rw [← Option.some.inj h]
    refine hall _ ?_
    rw [heq]
    exact (foldl_greatest (fun y : Nat × Slot => y.2.alloc) xs x).1

/-- The slot that RETAIN and REVOKE find is not FREE. -/
theorem State.lookupCapture_spec {s : State} {frame i : Nat} (h : s.lookupCapture frame = some i) : (s.slot i).state ≠ .free := by
  intro hfree
  unfold State.lookupCapture at h
  split at h
  · next j hj =>
    have := State.newestHolding_spec hj
    rw [Option.some.inj h, hfree] at this
    cases this
  · have := State.newestHolding_spec h
    rw [hfree] at this
    cases this

/-! ## The command -/

theorem State.recordOf_of_mem {s : State} (hok : s.framesOk) {r : Fin 8} {d : Delivery} (hd : d ∈ s.dle.records.get r) :
    s.recordOf r d.alloc = some d := by
  cases hrec : s.recordOf r d.alloc with
  | none => simpa using List.find?_eq_none.mp hrec d hd
  | some e =>
    obtain ⟨he, hea⟩ := State.recordOf_spec hrec
    rw [State.framesOk_single hok he hd hea]

theorem State.took_tx (s : State) (p : Port) (rest : List InPacket) (q : Port) : ((s.took p rest).ports.get q).tx = (s.ports.get q).tx := by
  obtain ⟨inbound, h⟩ := s.took_get p q rest
  rw [h]

theorem State.took_revokedTo (s : State) (p : Port) (rest : List InPacket) (r : Fin 8) (d : Delivery) :
    (s.took p rest).revokedTo r d = s.revokedTo r d := by
  unfold State.revokedTo HostPort.sendingOpen HostPort.sendingEnd
  rw [State.took_tx]
  rfl

theorem State.took_revokeDrops (s : State) (p : Port) (rest : List InPacket) (q : Port) (c : InPacket) (alloc : Nat) (r : Fin 8) :
    (s.took p rest).revokeDrops q c alloc r = s.revokeDrops q c alloc r := by
  unfold State.revokeDrops HostPort.sendingOpen
  rw [State.took_tx]
  rfl

theorem revokeOwner_found {s : State} {p : Port} {c : InPacket} {i : Nat} (hi : s.lookupCapture (u32 c.payload 0) = some i) :
    revokeOwner p c s = .accept ((s.namedRoutes p (byteAt c.payload 4)).foldl (fun t r => t.revokeOn (s.slot i).alloc r) s) [] := by
  simp only [revokeOwner, hi]

section Found

variable {s : State} (hok : s.framesOk) {p : Port} {c : InPacket} {rs : List (Fin 8)}
include hok

/-- No route leaves another slot. -/
theorem State.leaves_revoking_other {i j : Nat} (hi : (s.slot i).state ≠ .free) (hj : j ≠ i) (r : Fin 8) :
    s.leaves (s.revoking rs (s.slot i).alloc) j r = false := by
  rw [State.leaves, List.any_eq_false]
  intro d hd hcond
  simp only [Bool.and_eq_true, decide_eq_true_eq, Bool.not_eq_true'] at hcond
  obtain ⟨⟨hdj, hopen⟩, hfinal⟩ := hcond
  obtain ⟨hda, hds⟩ := State.framesOk_stored hok hd
  have hne : d.alloc ≠ (s.slot i).alloc := fun ha => hj (hdj ▸ State.framesOk_own hok hds hi (hda.trans ha))
  rw [s.revoking_of_alloc rs r hne, hopen] at hfinal
  cases hfinal

theorem Ends.revoked_slot_ne {i : Nat} (hi : (s.slot i).state ≠ .free) {t : State}
    (h : Ends (s.revoking rs (s.slot i).alloc) s t) {j : Nat} (hj : j ≠ i) : t.slot j = s.slot j := by
  by_cases hfree : (s.slot j).state = .free
  · exact h.free j hfree
  · rw [h.slot j hfree, State.left_of_no_leave (State.leaves_revoking_other hok hi hj), Slot.released_self]

/-- Every record's slot but the revoked frame's stands, so the records stay but for those of that frame where its slot is freed. -/
theorem Ends.revoked_records {i : Nat} (hi : (s.slot i).state ≠ .free) {t : State}
    (h : Ends (s.revoking rs (s.slot i).alloc) s t) (r : Fin 8) :
    t.dle.records.get r =
      if (t.slot i).state = .free then (s.dle.records.get r).filter fun d => d.alloc ≠ (s.slot i).alloc
      else (s.dle.records.get r).map (s.revoking rs (s.slot i).alloc r) := by
  have hg := s.revoking_changes rs (s.slot i).alloc
  have hother (d : Delivery) (hd : d ∈ s.dle.records.get r) :
      d.slot = i ∧ d.alloc = (s.slot i).alloc ∨ (t.slot d.slot).state ≠ .free ∧ d.alloc ≠ (s.slot i).alloc := by
    obtain ⟨hda, hds⟩ := State.framesOk_stored hok hd
    by_cases hdi : d.slot = i
    · exact .inl ⟨hdi, by rw [← hda, hdi]⟩
    · exact .inr ⟨by rwa [h.revoked_slot_ne hok hi hdi], fun ha => hdi (State.framesOk_own hok hds hi (hda.trans ha))⟩
  rw [h.records]
  split
  · next hfree =>
    rw [List.filter_map, List.filter_congr (q := fun d => d.alloc ≠ (s.slot i).alloc) fun d hd => ?_]
    · refine (List.map_congr_left fun d hd => ?_).trans (List.map_id _)
      exact s.revoking_of_alloc rs r (by simpa using (List.mem_filter.mp hd).2)
    · rw [Function.comp, hg.slot]
      rcases hother d hd with ⟨hdi, hda⟩ | ⟨hds, hda⟩
      · rw [hdi]; simp [hfree, hda]
      · simp [hds, hda]
  · next hfree =>
    refine List.filter_eq_self.mpr fun e he => ?_
    obtain ⟨d, hd, rfl⟩ := List.mem_map.mp he
    rw [hg.slot]
    rcases hother d hd with ⟨hdi, -⟩ | ⟨hds, -⟩
    · rw [hdi]; simpa using hfree
    · simpa using hds

variable (hrs : ∀ r, r ∈ rs ↔ s.revokes p c r)
include hrs

/-- The routes that REVOKE of a frame in store ends without a packet are those that leave its slot. -/
theorem State.leaves_revoking {i : Nat} (hi : (s.slot i).state ≠ .free) (r : Fin 8) :
    s.leaves (s.revoking rs (s.slot i).alloc) i r = s.revokeDrops p c (s.slot i).alloc r := by
  rw [Bool.eq_iff_iff, State.revokeDrops, Bool.and_eq_true, decide_eq_true_eq, State.leaves, List.any_eq_true]
  constructor
  · rintro ⟨d, hd, hcond⟩
    simp only [Bool.and_eq_true, decide_eq_true_eq, Bool.not_eq_true'] at hcond
    obtain ⟨⟨hdi, hopen⟩, hfinal⟩ := hcond
    obtain ⟨ha, -⟩ := State.framesOk_stored hok hd
    rw [hdi] at ha
    by_cases hmem : r ∈ rs
    · rw [State.revoking, if_pos ⟨hmem, ha.symm, hopen⟩, State.revokedTo_final _ _ hopen] at hfinal
      obtain ⟨hpending, hsend⟩ := of_decide_eq_true hfinal
      refine ⟨(hrs r).mp hmem, ?_⟩
      rw [ha, State.recordOf_of_mem hok hd]
      simp [hpending, hsend]
    · rw [s.revoking_of_not_mem _ hmem, hopen] at hfinal
      cases hfinal
  · rintro ⟨hrev, hany⟩
    cases hrec : s.recordOf r (s.slot i).alloc with
    | none => rw [hrec] at hany; cases hany
    | some d =>
      rw [hrec] at hany
      obtain ⟨hpending, hsend⟩ : d.state = .pending
          ∧ (s.ports.get (s.dle.routes.get r).port).sendingOpen r (s.slot i).alloc = false := by simpa using hany
      obtain ⟨hd, ha⟩ := State.recordOf_spec hrec
      obtain ⟨hda, hds⟩ := State.framesOk_stored hok hd
      have hopen : d.state.final = false := by simp [hpending, RecordState.final]
      refine ⟨d, hd, ?_⟩
      rw [State.revoking, if_pos ⟨(hrs r).mpr hrev, ha, hopen⟩, State.revokedTo_final _ _ hopen]
      simp [State.framesOk_own hok hds hi (hda.trans ha), hpending, ha, hsend, RecordState.final]

/-- A route that REVOKE ends without a packet is outstanding. -/
theorem State.revokeDrops_mem {i : Nat} (hi : (s.slot i).state ≠ .free) {r : Fin 8}
    (h : s.revokeDrops p c (s.slot i).alloc r = true) : r ∈ (s.slot i).outstanding := by
  rw [← State.leaves_revoking hok hrs hi r, State.leaves, List.any_eq_true] at h
  obtain ⟨d, hd, hcond⟩ := h
  simp only [Bool.and_eq_true, decide_eq_true_eq, Bool.not_eq_true'] at hcond
  have howed := (State.framesOk_owed hok hd hcond.1.2).1
  rwa [hcond.1.1] at howed

theorem Ends.revoked_slot {i : Nat} (hi : (s.slot i).state ≠ .free) {t : State} (h : Ends (s.revoking rs (s.slot i).alloc) s t) :
    t.slot i = (s.slot i).released ((s.slot i).outstanding.filter fun r => !s.revokeDrops p c (s.slot i).alloc r) 0 := by
  rw [h.slot i hi, State.left]
  simp only [State.leaves_revoking hok hrs hi]

end Found

/-- Settles O27: route by route, with the records of the routes done so far changed and the slot released of them. -/
theorem revokeEndsOrFlagsTheRecords : Obligations.RevokeEndsOrFlagsTheRecords := by
  intro s p c rest htake hp
  have hr : s.firstRefusal p c = none := State.admits_any (row := ⟨codeRevoke, 5, .any, true⟩) (by decide) rfl (fun _ => rfl) hp
  refine ⟨fun hnone => exec_refuse rfl htake hp hr ?_, fun i hfound => ?_⟩
  · have hnone' : (s.took p rest).lookupCapture (u32 c.payload 0) = none := hnone
    simp only [revokeOwner, hnone']
  have hi : ((s.took p rest).slot i).state ≠ .free := State.lookupCapture_spec (s := s.took p rest) hfound
  refine ⟨_, exec_accept rfl htake hp hr (revokeOwner_found (s := s.took p rest) hfound), by simp, by simp, by simp, by simp, by simp,
    by simp, by simp, by simp, by simp, by simp, by simp, by simp, by simp, fun hframes => ?_⟩
  have hok : (s.took p rest).framesOk := State.framesOk_of_book (State.took_book s p rest) hframes
  have hrs (r : Fin 8) : r ∈ (s.took p rest).namedRoutes p (byteAt c.payload 4) ↔ (s.took p rest).revokes p c r := by
    have := (s.took p rest).mem_namedRoutes p (byteAt c.payload 4) r
    rw [Bool.eq_iff_iff] at this
    simpa [State.revokes] using this
  have hends := Ends.revokeAll hok ((s.took p rest).slot i).alloc ((s.took p rest).namedRoutes p (byteAt c.payload 4)) [] _
    ((Ends.refl _ hok).congr (State.revoking_changes _ _ _) fun r d _ => State.revoking_of_not_mem _ _ (by simp) d) rfl rfl
    (by rw [List.nil_append]; exact State.namedRoutes_nodup _ _ _)
  rw [List.nil_append] at hends
  have hslot := hends.revoked_slot hok hrs hi
  have hrecords := hends.revoked_records hok hi
  have hmem (r : Fin 8) (h : s.revokeDrops p c (s.slot i).alloc r = true) : r ∈ (s.slot i).outstanding :=
    State.revokeDrops_mem hok hrs hi (by rwa [State.took_revokeDrops])
  simp only [State.took_revokeDrops] at hslot
  have hsame : (s.took p rest).slot i = s.slot i := rfl
  rw [hsame] at hslot hrecords hi
  intro x ends left ended
  have hleft : left ≠ x.outstanding ↔ ∃ r, ends r = true := by
    rw [Ne, List.filter_eq_self]
    refine ⟨fun h => by_contra fun hno => h fun r _ => ?_, fun ⟨r, h⟩ hall => ?_⟩
    · simpa using fun hr => hno ⟨r, hr⟩
    · have := hall r (hmem r h)
      simp only [h] at this
      cases this
  have hended : (x.state = .closed ∧ left = [] ∧ x.pendingRereads = 0 ∧ (left ≠ x.outstanding ∨ 0 < 0)) ↔ ended := by
    rw [hleft]
    exact ⟨fun ⟨hc, hl, hp, hr⟩ => ⟨hr.resolve_right (lt_irrefl 0), hc, hl, hp⟩, fun ⟨hr, hc, hl, hp⟩ => ⟨hc, hl, hp, .inl hr⟩⟩
  have hfreed (he : ended) (hret : x.retain = false) : x.released left 0 = Slot.empty := by
    unfold Slot.released
    rw [if_pos (hended.mpr he), if_neg (by simp [hret])]
  have hheld (he : ended) (hret : x.retain = true) :
      x.released left 0 = { x with state := .held, retain := false, outstanding := [] } := by
    unfold Slot.released
    rw [if_pos (hended.mpr he), if_pos hret, he.2.2.1]
    rfl
  have hstays (hne : ¬ ended) : x.released left 0 = { x with outstanding := left } := by
    unfold Slot.released
    rw [if_neg fun h => hne (hended.mp h), if_neg fun h => lt_irrefl 0 h.2.2.1]
    rfl
  refine ⟨fun j hj => hends.revoked_slot_ne hok hi hj, fun he hret => ⟨hslot.trans (hfreed he hret), fun r => ?_⟩,
    fun he hret => hslot.trans (hheld he hret), fun hne => hslot.trans (hstays hne), fun hkept r => ?_⟩
  · refine (hrecords r).trans ?_
    rw [hslot]
    exact if_pos (congrArg Slot.state (hfreed he hret))
  · have hne : (x.released left 0).state ≠ .free := by
      by_cases he : ended
      · rw [hheld he (by simpa using fun hret => hkept ⟨he, hret⟩)]; exact SlotState.noConfusion
      · rw [hstays he]; exact hi
    refine (hrecords r).trans ?_
    rw [hslot]
    refine (if_neg hne).trans ?_
    refine List.map_congr_left fun d _ => ?_
    dsimp only
    by_cases hd : d.alloc ≠ x.alloc ∨ ¬ s.revokes p c r ∨ d.state.final = true
    · rw [if_pos hd]
      refine if_neg fun hacts => ?_
      rcases hd with hd | hd | hd
      · exact hd hacts.2.1
      · exact hd ((hrs r).mp hacts.1)
      · rw [hacts.2.2] at hd; cases hd
    · rw [if_neg hd]
      simp only [not_or, not_not] at hd
      refine (if_pos ⟨(hrs r).mpr hd.2.1, hd.1, by simpa using hd.2.2⟩).trans ?_
      rw [State.took_revokedTo]
      rfl

end Sys2Proof.Machine

/-! # RUN_STOP and the end of draining (R17, R44, R64, R81, R150, R174, R175) -/

namespace Sys2Proof.Machine

/-! ## What ending a record leaves of the others -/

theorem State.reportFinal_records_sublist (s : State) (r : Fin 8) (i : Nat) (q : Fin 8) :
    ((s.reportFinal r i).dle.records.get q).Sublist (s.dle.records.get q) := by
  unfold State.reportFinal
  have h := State.freeingTest_records_sublist (s.setSlot i fun x => { x with outstanding := x.outstanding.filter (· ≠ r) }) i q
  simpa using h

/-- From s to u no record becomes PENDING. -/
def PendingFrom (s u : State) : Prop :=
  ∀ r d, d ∈ u.dle.records.get r → d.state = .pending → d ∈ s.dle.records.get r

theorem PendingFrom.refl (s : State) : PendingFrom s s := fun _ _ h _ => h

theorem PendingFrom.trans {s t u : State} (h : PendingFrom s t) (h' : PendingFrom t u) : PendingFrom s u :=
  fun r d hd hp => h r d (h' r d hd hp) hp

/-- A record that ends is not PENDING, and a PENDING one was there before. -/
theorem State.finalize_pending {s : State} {r : Fin 8} {d : Delivery} {x : RecordState} (hx : x.final = true) {q : Fin 8} {e : Delivery}
    (he : e ∈ (s.finalize r d x).dle.records.get q) (hp : e.state = .pending) :
    e ∈ s.dle.records.get q ∧ ¬ (q = r ∧ e.alloc = d.alloc) := by
  rw [State.finalize_eq] at he
  have he := (State.reportFinal_records_sublist _ _ _ _).subset he
  rw [State.setRecord_get] at he
  split at he
  · next hq =>
    obtain ⟨e₀, he₀, rfl⟩ := List.mem_map.mp he
    split at hp
    · next ha =>
      have hend : x = .pending := hp
      rw [hend] at hx
      cases hx
    · next ha => rw [if_neg ha]; exact ⟨hq ▸ he₀, fun h => ha h.2⟩
  · next hq => exact ⟨he, fun h => hq h.1⟩

theorem State.finalize_sublist (s : State) (r : Fin 8) (d : Delivery) (x : RecordState) {q : Fin 8} (hq : q ≠ r) :
    ((s.finalize r d x).dle.records.get q).Sublist (s.dle.records.get q) := by
  have h := (s.setRecord r d.alloc fun y => y.ended x).reportFinal_records_sublist r d.slot q
  rwa [State.setRecord_get, if_neg hq] at h

/-- The records of a list, ended. -/
def State.finalizeAll (s : State) (r : Fin 8) (x : RecordState) (ds : List Delivery) : State := ds.foldl (fun u d => u.finalize r d x) s

theorem State.finalizeAll_pending {r : Fin 8} {x : RecordState} (hx : x.final = true) (ds : List Delivery) (s : State) {q : Fin 8}
    {e : Delivery} (he : e ∈ (s.finalizeAll r x ds).dle.records.get q) (hp : e.state = .pending) :
    e ∈ s.dle.records.get q ∧ ∀ d ∈ ds, ¬ (q = r ∧ e.alloc = d.alloc) := by
  induction ds generalizing s with
  | nil => exact ⟨he, by simp⟩
  | cons d ds ih =>
    obtain ⟨hrest, hnot⟩ := ih (s.finalize r d x) he
    obtain ⟨hin, hd⟩ := State.finalize_pending hx hrest hp
    exact ⟨hin, List.forall_mem_cons.mpr ⟨hd, hnot⟩⟩

theorem State.finalizeAll_sublist (r : Fin 8) (x : RecordState) (ds : List Delivery) (s : State) {q : Fin 8} (hq : q ≠ r) :
    ((s.finalizeAll r x ds).dle.records.get q).Sublist (s.dle.records.get q) := by
  induction ds generalizing s with
  | nil => exact List.Sublist.refl _
  | cons d ds ih => exact (ih (s.finalize r d x)).trans (s.finalize_sublist r d x hq)

/-! ## The PENDING records of a route, SKIPPED (R150) -/

/-- The PENDING records of one route become SKIPPED. -/
def State.skipRoute (s : State) (r : Fin 8) : State := s.finalizeAll r .skipped ((s.dle.records.get r).filter fun d => d.state = .pending)

theorem State.skipPending_eq (s : State) (p : Port) : s.skipPending p = (s.routesOf p).foldl State.skipRoute s := rfl

theorem State.skipRoute_pending (s : State) (r : Fin 8) : PendingFrom s (s.skipRoute r) :=
  fun _ _ hd hp => (State.finalizeAll_pending rfl _ s hd hp).1

theorem State.skipRoute_no_pending (s : State) (r : Fin 8) : ∀ d ∈ (s.skipRoute r).dle.records.get r, d.state ≠ .pending := by
  intro d hd hp
  obtain ⟨hin, hnot⟩ := State.finalizeAll_pending rfl _ s hd hp
  exact hnot d (List.mem_filter.mpr ⟨hin, by simp [hp]⟩) ⟨rfl, rfl⟩

theorem foldl_skipRoute_pending (rs : List (Fin 8)) (s : State) : PendingFrom s (rs.foldl State.skipRoute s) :=
  foldl_holds (PendingFrom s) _ (fun u r hu => hu.trans (u.skipRoute_pending r)) rs s (.refl s)

theorem foldl_skipRoute_no_pending (rs : List (Fin 8)) (s : State) {r : Fin 8} (hr : r ∈ rs) :
    ∀ d ∈ (rs.foldl State.skipRoute s).dle.records.get r, d.state ≠ .pending := by
  induction rs generalizing s with
  | nil => cases hr
  | cons q rs ih =>
    rcases List.mem_cons.mp hr with rfl | hr
    · intro d hd hp
      exact s.skipRoute_no_pending r d (foldl_skipRoute_pending rs (s.skipRoute r) r d hd hp) hp
    · exact ih (s.skipRoute q) hr

theorem foldl_skipRoute_sublist (rs : List (Fin 8)) (s : State) {r : Fin 8} (hr : r ∉ rs) :
    ((rs.foldl State.skipRoute s).dle.records.get r).Sublist (s.dle.records.get r) := by
  induction rs generalizing s with
  | nil => exact List.Sublist.refl _
  | cons q rs ih =>
    have hq : r ≠ q := fun h => hr (h ▸ List.mem_cons_self)
    have hrs : r ∉ rs := fun h => hr (List.mem_cons_of_mem _ h)
    exact (ih (s.skipRoute q) hrs).trans (State.finalizeAll_sublist q .skipped _ s hq)

/-! ## Under the agreement of frames, slots and records -/

/-- The change that skipping makes: the PENDING records a test names become SKIPPED. -/
def skipping (named : Fin 8 → Nat → Bool) (r : Fin 8) (d : Delivery) : Delivery :=
  if named r d.alloc = true ∧ d.state = .pending then d.ended .skipped else d

theorem skipping_changes (named : Fin 8 → Nat → Bool) : Changes (skipping named) := by
  refine ⟨fun r d => ?_, fun r d => ?_, fun r d hd => ?_⟩ <;> unfold skipping <;> split
  · rfl
  · rfl
  · rfl
  · rfl
  · rfl
  · exact hd

theorem skipping_of_not_named {named : Fin 8 → Nat → Bool} {r : Fin 8} {d : Delivery} (h : named r d.alloc = false) :
    skipping named r d = d := if_neg (by simp [h])

theorem skipping_of_not_pending (named : Fin 8 → Nat → Bool) (r : Fin 8) {d : Delivery} (h : d.state ≠ .pending) :
    skipping named r d = d := if_neg fun hx => h hx.2

theorem skipping_congr {named named' : Fin 8 → Nat → Bool} {r : Fin 8} {d : Delivery} (h : named r d.alloc = named' r d.alloc) :
    skipping named r d = skipping named' r d := by
  unfold skipping
  simp only [h]

section Skipping

variable {s u : State} (hok : s.framesOk) {named : Fin 8 → Nat → Bool} {r : Fin 8}
include hok

/-- One record more is SKIPPED. -/
theorem Ends.skip (h : Ends (skipping named) s u) {d : Delivery} (hd : d ∈ s.dle.records.get r) (hp : d.state = .pending)
    (hn : named r d.alloc = false) :
    Ends (skipping fun q a => named q a || (decide (q = r) && decide (a = d.alloc))) s (u.finalize r d .skipped) := by
  have hstands := skipping_of_not_named hn
  have hopen : d.state.final = false := by simp [hp, RecordState.final]
  have hin : d ∈ u.dle.records.get r := by
    obtain ⟨-, hslot⟩ := h.owed hok hd hopen (by rw [hstands]; exact hopen)
    rw [h.records, List.mem_filter]
    exact ⟨List.mem_map.mpr ⟨d, hd, hstands⟩, by rw [hslot]; exact decide_eq_true (State.framesOk_stored hok hd).2⟩
  refine (h.finalize hok hin hopen (x := .skipped) rfl).congr (skipping_changes _) fun q e he => ?_
  unfold alsoAt
  split
  · next hat =>
    obtain ⟨rfl, ha⟩ := hat
    rw [State.framesOk_single hok he hd ha, hstands]
    exact if_pos ⟨by simp, hp⟩
  · next hat =>
    refine skipping_congr ?_
    rw [← Bool.decide_and, decide_eq_false hat, Bool.or_false]

theorem Ends.skipAll (ds : List Delivery) (named : Fin 8 → Nat → Bool) (u : State) (h : Ends (skipping named) s u)
    (hds : ∀ d ∈ ds, d ∈ s.dle.records.get r ∧ d.state = .pending ∧ named r d.alloc = false) (hnodup : (ds.map Delivery.alloc).Nodup) :
    Ends (skipping fun q a => named q a || (decide (q = r) && ds.any fun d => a = d.alloc)) s (u.finalizeAll r .skipped ds) := by
  induction ds generalizing named u with
  | nil =>
    have hsame : (fun q a => named q a || (decide (q = r) && ([] : List Delivery).any fun d => a = d.alloc)) = named := by
      funext q a; simp
    rw [hsame]
    exact h
  | cons d ds ih =>
    obtain ⟨⟨hd, hp, hn⟩, hrest⟩ := List.forall_mem_cons.mp hds
    obtain ⟨hnot, hnodup⟩ := List.nodup_cons.mp hnodup
    have hnext := ih _ _ (h.skip hok hd hp hn) (fun e he => ⟨(hrest e he).1, (hrest e he).2.1, by
      have hne : e.alloc ≠ d.alloc := fun heq => hnot (heq ▸ List.mem_map_of_mem he)
      simp [(hrest e he).2.2, hne]⟩) hnodup
    simp only [List.any_cons, Bool.and_or_distrib_left, ← Bool.or_assoc]
    exact hnext

/-- One route more is SKIPPED. -/
theorem Ends.skipRoute (h : Ends (skipping named) s u) (hn : ∀ a, named r a = false) :
    Ends (skipping fun q a => named q a || decide (q = r)) s (u.skipRoute r) := by
  have hrecords : u.dle.records.get r = (s.dle.records.get r).filter fun d => (u.slot d.slot).state ≠ .free := by
    rw [h.records, List.map_congr_left fun d _ => skipping_of_not_named (hn d.alloc), List.map_id']
  have hall := h.skipAll hok (r := r) ((u.dle.records.get r).filter fun d => d.state = .pending) named u
    (fun d hd => by
      obtain ⟨hd, hp⟩ := List.mem_filter.mp hd
      rw [hrecords] at hd
      exact ⟨(List.mem_filter.mp hd).1, of_decide_eq_true hp, hn _⟩)
    (by
      have hnodup : ((s.dle.records.get r).map Delivery.alloc).Nodup := by
        have := (s.framesOk_iff.mp hok).single r
        simpa [State.ledger, Delivery.charge, Function.comp_def] using this
      refine hnodup.sublist (List.Sublist.map _ ?_)
      rw [hrecords]
      exact List.filter_sublist.trans List.filter_sublist)
  refine hall.congr (skipping_changes _) fun q e he => ?_
  by_cases hp : e.state = .pending
  · refine skipping_congr ?_
    by_cases hq : q = r
    · subst hq
      have hstands := skipping_of_not_named (d := e) (hn e.alloc)
      have hopen : e.state.final = false := by simp [hp, RecordState.final]
      have hin : e ∈ u.dle.records.get q := by
        obtain ⟨-, hslot⟩ := h.owed hok he hopen (by rw [hstands]; exact hopen)
        rw [hrecords, List.mem_filter]
        exact ⟨he, by rw [hslot]; exact decide_eq_true (State.framesOk_stored hok he).2⟩
      have hany : ((u.dle.records.get q).filter fun d => d.state = .pending).any (fun d => e.alloc = d.alloc) = true :=
        List.any_eq_true.mpr ⟨e, List.mem_filter.mpr ⟨hin, by simp [hp]⟩, by simp⟩
      rw [hany, Bool.and_true]
    · rw [decide_eq_false hq, Bool.false_and]
  · rw [skipping_of_not_pending _ _ hp, skipping_of_not_pending _ _ hp]

theorem Ends.skipRoutes (rs done : List (Fin 8)) (u : State) (h : Ends (skipping fun q _ => decide (q ∈ done)) s u)
    (hnodup : (done ++ rs).Nodup) : Ends (skipping fun q _ => decide (q ∈ done ++ rs)) s (rs.foldl State.skipRoute u) := by
  induction rs generalizing done u with
  | nil => rwa [List.append_nil]
  | cons r rs ih =>
    have hr : r ∉ done := fun hmem => (List.nodup_append.mp hnodup).2.2 r hmem r List.mem_cons_self rfl
    have hstep := h.skipRoute hok (r := r) fun _ => decide_eq_false hr
    have hnext := ih (done ++ [r]) (u.skipRoute r)
      (by simpa only [List.mem_append, List.mem_singleton, Bool.decide_or] using hstep) (by rwa [List.append_assoc])
    rwa [List.append_assoc] at hnext

end Skipping

/-! ## RUN_STOP -/

/-- The routes whose PENDING records RUN_STOP skips: those of DOWN ports, port A's first. -/
def State.skipped (s : State) : List (Fin 8) :=
  [Port.a, Port.b].flatMap fun p => if (s.ports.get p).link = .down then s.routesOf p else []

theorem State.mem_skipped (s : State) (r : Fin 8) : r ∈ s.skipped ↔ (s.ports.get (s.dle.routes.get r).port).link = .down := by
  have hroutes (p : Port) : r ∈ s.routesOf p ↔ (s.dle.routes.get r).port = p := by
    simp [State.routesOf, (by decide : ∀ i : Fin 8, i ∈ indices)]
  have hport (p : Port) : (r ∈ if (s.ports.get p).link = .down then s.routesOf p else [])
      ↔ (s.ports.get p).link = .down ∧ (s.dle.routes.get r).port = p := by
    split
    · next h => simp [hroutes, h]
    · next h => simp [h]
  simp only [State.skipped, List.mem_flatMap, List.mem_cons, List.not_mem_nil, or_false, hport]
  constructor
  · rintro ⟨p, -, h, hp⟩
    rwa [hp]
  · intro h
    exact ⟨(s.dle.routes.get r).port, by cases (s.dle.routes.get r).port <;> simp, h, rfl⟩

theorem State.skipped_nodup (s : State) : s.skipped.Nodup := by
  have hnodup (p : Port) : (s.routesOf p).Nodup := List.Nodup.filter _ (by decide)
  have hroutes (p : Port) (r : Fin 8) : r ∈ s.routesOf p ↔ (s.dle.routes.get r).port = p := by
    simp [State.routesOf, (by decide : ∀ i : Fin 8, i ∈ indices)]
  unfold State.skipped
  simp only [List.flatMap_cons, List.flatMap_nil, List.append_nil]
  refine List.nodup_append.mpr ⟨by split <;> simp [hnodup], by split <;> simp [hnodup], fun r ha q hb hrq => ?_⟩
  subst hrq
  split at ha <;> split at hb
  · have := ((hroutes .a r).mp ha).symm.trans ((hroutes .b r).mp hb)
    cases this
  all_goals simp at ha hb

theorem foldl_skipRoute_frame (rs : List (Fin 8)) (s : State) :
    (rs.foldl State.skipRoute s).ports = s.ports ∧ (rs.foldl State.skipRoute s).dle.routes = s.dle.routes := by
  have h := foldl_keeps (fun u : State => (u.ports, u.dle.routes)) State.skipRoute
    (fun u r => by simp [State.skipRoute, State.finalizeAll]) rs s
  exact Prod.mk.inj h

/-- RUN_STOP skips route by route. -/
theorem State.stopRun_skips (s : State) : s.stopRun = s.stopped.skipped.foldl State.skipRoute s.stopped := by
  have hskip (u : State) (p : Port) :
      u.skipIfDown p = (if (u.ports.get p).link = .down then u.routesOf p else []).foldl State.skipRoute u := by
    unfold State.skipIfDown
    split
    · exact u.skipPending_eq p
    · rfl
  have hsame (rs : List (Fin 8)) (p : Port) : (rs.foldl State.skipRoute s.stopped).routesOf p = s.stopped.routesOf p := by
    unfold State.routesOf
    rw [(foldl_skipRoute_frame rs s.stopped).2]
  rw [State.stopRun_eq, hskip _ .b, hskip _ .a, (foldl_skipRoute_frame _ _).1, hsame]
  simp [State.skipped, List.foldl_append]

theorem State.stopped_eq (s : State) :
    s.stopped.dle = s.dle ∧ s.stopped.slm = s.slm ∧ s.stopped.frt = { s.frt with stopTick := some s.ptk.high, triggersEnded := false }
      ∧ s.stopped.rnc = { s.rnc with runState := .draining, closeAtStopMade := false } := by
  simp [State.stopped, State.enterRunState]

theorem State.stopped_down (s : State) (p : Port) : (s.stopped.ports.get p).link = .down ↔ (s.ports.get p).link = .down := by
  have h := congrArg Prod.fst (State.raise_line
    { s with
      frt := { s.frt with stopTick := some s.ptk.high, triggersEnded := false },
      rnc := { s.rnc with closeAtStopMade := false, runState := .draining } } .runState none none RunState.draining.code p)
  simpa [HostPort.line, State.stopped, State.enterRunState] using h

/-- Out of CONFIG the agreement does not turn on the run state, and RUN_STOP leaves CONFIG. -/
theorem State.stopped_framesOk {s : State} (hok : s.framesOk) : s.stopped.framesOk := by
  have hbook : s.stopped.book = ({ s.ledger with run := .draining }, s.frt.openList) :=
    State.raise_book { s with
      frt := { s.frt with stopTick := some s.ptk.high, triggersEnded := false },
      rnc := { s.rnc with closeAtStopMade := false, runState := .draining } } .runState none none RunState.draining.code
  obtain ⟨hledger, hopen⟩ := Prod.mk.inj hbook
  have h := s.framesOk_iff.mp hok
  rw [State.framesOk_iff, hledger, hopen]
  exact ⟨h.distinct, h.opened, h.own, h.nonzero, fun hr => (RunState.noConfusion hr), h.single, h.stored, h.owed, h.idle, h.numbered,
    h.sending⟩

theorem runStop_refusal {s : State} {c : InPacket} (hs : s.rnc.runState = .running) (hp : c.passes 0x21 0) :
    s.firstRefusal .a c = none :=
  State.firstRefusal_none (row := ⟨codeRunStop, 0, .running, false⟩) (by decide) hp (fun h => by cases h)
    (by simp [State.accepts, hs])

/-! ## The end of draining -/

theorem State.drained_iff (s : State) : s.drained = true ↔ s.rnc.runState = .draining ∧ s.rnc.closeAtStopMade = true
    ∧ ∀ x ∈ s.slm.slots, x.state = .free ∨ x.state = .held := by
  simp [State.drained, State.allFreeOrHeld, and_assoc]

theorem Tru.runEnd_spec (u : Tru) :
    u.runEnd.loop = u.staged.getD u.loop ∧ u.runEnd.staged = none ∧ u.runEnd.pointer = u.runEnd.loop.first ∧ u.runEnd.skipped = 0
      ∧ u.runEnd.table = u.table ∧ u.runEnd.spacing = u.spacing ∧ (u.group = none → u.runEnd.group = none) := by
  unfold Tru.runEnd Tru.switchLoop
  cases h : u.staged with
  | none => exact ⟨rfl, h, rfl, rfl, rfl, rfl, id⟩
  | some b => exact ⟨rfl, rfl, rfl, rfl, rfl, rfl, fun hg => by simp [Tru.pointerToStart, hg]⟩

/-- Settles O23: RUN_STOP, route by route, and the end of draining. -/
theorem runsDrainAndEnd : Obligations.RunsDrainAndEnd := by
  refine ⟨fun s c rest htake hp hrun => ?_, fun s hs => ⟨fun hd => ?_, fun hd => ?_⟩⟩
  · refine ⟨_, exec_accept rfl htake hp (runStop_refusal hrun hp) rfl, ?_⟩
    obtain ⟨hdle, hslm, hfrt, hrnc⟩ := (s.took .a rest).stopped_eq
    have hdown (r : Fin 8) : r ∈ (s.took .a rest).stopped.skipped ↔ (s.ports.get (s.dle.routes.get r).port).link = .down := by
      rw [State.mem_skipped, hdle, State.stopped_down]
      obtain ⟨inbound, h⟩ := s.took_get .a (s.dle.routes.get r).port rest
      exact (congrArg (fun k : HostPort => k.link = .down) h).to_iff
    have hskips := (s.took .a rest).stopRun_skips
    refine ⟨?_, ?_, by simp, by simp, by simp, by simp, by simp, by simp, by simp, by simp, by simp, by simp, by simp, by simp,
      (s.took .a rest).stopRun_runState.2, fun r d hd hlink => ?_, fun r hlink => ?_, fun hframes r => ?_, fun ha hb => ?_⟩
    · rw [State.stopRun_eq]; simp only [State.skipIfDown_frame]; exact hrnc
    · rw [State.stopRun_eq]; simp only [State.skipIfDown_frame]; exact hfrt
    · rw [hskips] at hd
      exact foldl_skipRoute_no_pending _ _ ((hdown r).mpr hlink) d hd
    · have h := foldl_skipRoute_sublist (s.took .a rest).stopped.skipped (s.took .a rest).stopped fun hr => hlink ((hdown r).mp hr)
      rwa [hdle, ← hskips] at h
    · have hok : (s.took .a rest).stopped.framesOk :=
        State.stopped_framesOk (State.framesOk_of_book (State.took_book s .a rest) hframes)
      have hends := Ends.skipRoutes hok (s.took .a rest).stopped.skipped [] (s.took .a rest).stopped
        ((Ends.refl _ hok).congr (skipping_changes _) fun q e _ => skipping_of_not_named (by simp)) (State.skipped_nodup _)
      rw [List.nil_append, ← hskips] at hends
      rw [hends.records, hdle]
      congr 1
      refine List.map_congr_left fun d _ => ?_
      unfold skipping
      simp only [decide_eq_true_eq, hdown]
      rfl
    · have hnone : (s.took .a rest).stopped.skipped = [] := by
        rw [List.eq_nil_iff_forall_not_mem]
        intro r hr
        have hlink := (hdown r).mp hr
        cases hp : (s.dle.routes.get r).port <;> rw [hp] at hlink
        · exact ha hlink
        · exact hb hlink
      rw [hskips, hnone]
      exact ⟨hdle, hslm⟩
  · have harm : exec .endOfDraining s = execEndOfDraining s := rfl
    refine ⟨s.endRun, by rw [harm, execEndOfDraining, State.whenPowered_high _ _ hs, if_pos (s.drained_iff.mpr hd)], ?_⟩
    have htru : s.endRun.tru = s.tru.runEnd := by simp [State.endRun, State.enterRunState]
    obtain ⟨h1, h2, h3, h4, h5, h6, h7⟩ := s.tru.runEnd_spec
    rw [htru]
    refine ⟨by simp [State.endRun, State.enterRunState], by simp [State.endRun, State.enterRunState], h1, h2, h3, h4, h5, h6, h7,
      fun l => ?_, by simp, by simp, by simp, by simp, by simp, by simp, s.endRun_runState.2⟩
    have hlane : s.endRun.lanes.get l = (s.lanes.get l).runEnd := by simp [State.endRun, State.enterRunState]
    rw [hlane, Lane.runEnd]
    split <;> rfl
  · have harm : exec .endOfDraining s = execEndOfDraining s := rfl
    rw [harm, execEndOfDraining, State.whenPowered_high _ _ hs, if_neg fun h => hd (s.drained_iff.mp h)]

end Sys2Proof.Machine

/-! # Packets sent (R94, R99, R130, R132, R133, R137, R145, R147, R158, R165, R167, R176) -/

namespace Sys2Proof.Machine

/-! ## What every packet sent leaves -/

theorem State.finishTx_sentBy (s : State) (p : Port) (k : Packet) : s.sentBy p k (s.finishTx p k) := by
  unfold State.sentBy State.finishTx
  refine ⟨?_, ?_, ?_, ?_, ?_, rfl, rfl, rfl, rfl, rfl, rfl, rfl, rfl, rfl, rfl, fun q hq => ?_⟩
  · simp [State.countPort]
  · simp [State.countPort]
  · simp [State.countPort]
  · cases p <;> rfl
  · cases p <;> rfl
  · simp only [State.countPort_frame]
    exact State.setPort_get_ne s hq _

section SentBy

variable {s t u : State} {p : Port} {k : Packet}

/-- What follows without touching what every packet sent leaves. -/
theorem State.sentBy_after (h : s.sentBy p k t)
    (hport : (u.ports.get p).tx = (t.ports.get p).tx ∧ (u.ports.get p).link = (t.ports.get p).link
      ∧ (u.ports.get p).inbound = (t.ports.get p).inbound)
    (hother : ∀ q, q ≠ p → u.ports.get q = t.ports.get q) (hntu : u.ntu = t.ntu := by simp) (hptk : u.ptk = t.ptk := by simp)
    (htru : u.tru = t.tru := by simp) (hlanes : u.lanes = t.lanes := by simp) (hfrt : u.frt = t.frt := by simp)
    (hlayout : u.layout = t.layout := by simp) (hroutes : u.dle.routes = t.dle.routes := by simp)
    (hpaused : u.dle.paused = t.dle.paused := by simp) (hnow : u.now = t.now := by simp) : s.sentBy p k u := by
  obtain ⟨htx, hlink, hin⟩ := hport
  unfold State.sentBy at h ⊢
  rw [htx, hlink, hin, hntu, hptk, htru, hlanes, hfrt, hlayout, hroutes, hpaused, hnow]
  obtain ⟨h1, h2, h3, h4, h5, h6, h7, h8, h9, h10, h11, h12, h13, h14, h15, h16⟩ := h
  exact ⟨h1, h2, h3, h4, h5, h6, h7, h8, h9, h10, h11, h12, h13, h14, h15, fun q hq => (hother q hq).trans (h16 q hq)⟩

theorem State.sentBy_setPort (h : s.sentBy p k t) (f : HostPort → HostPort)
    (hf : ∀ x, (f x).tx = x.tx ∧ (f x).link = x.link ∧ (f x).inbound = x.inbound) : s.sentBy p k (t.setPort p f) :=
  State.sentBy_after h (by rw [State.setPort_get, if_pos rfl]; exact hf _) fun q hq => State.setPort_get_ne t hq f

theorem State.sentBy_endTile (h : s.sentBy p k t) : s.sentBy p k (t.endTile p) :=
  State.sentBy_setPort h (fun x => { x with tile := none }) fun _ => ⟨rfl, rfl, rfl⟩

theorem State.sentBy_setRecord (h : s.sentBy p k t) (r : Fin 8) (a : Nat) (f : Delivery → Delivery) :
    s.sentBy p k (t.setRecord r a f) :=
  State.sentBy_after h ⟨rfl, rfl, rfl⟩ fun _ _ => rfl

end SentBy

/-! ## The steps -/

section Exec

variable {s : State} {p : Port} {k : Packet} (hs : s.pwrOk = true)
include hs

theorem exec_replySent (hx : (s.ports.get p).tx = some { source := .reply, packet := k }) :
    exec (.replySent p) s = .next (State.settle
      (if p = .a ∧ s.rnc.resetPending ∧ (s.replyOut p k).ports.a.replies = [] then
        { s.replyOut p k with rnc := { (s.replyOut p k).rnc with resetDue := true } } else s.replyOut p k) false) := by
  have harm : exec (.replySent p) s = execReplySent p s := rfl
  rw [harm, execReplySent, State.whenPowered_high _ _ hs, hx]
  rfl

theorem exec_noticeSent (hx : s.ports.a.tx = some { source := .notice, packet := k }) :
    exec .noticeSent s = .next (((s.finishTx .a k).setPort .a fun h => { h with notices := h.notices.drop 1 }).settle false) := by
  have harm : exec .noticeSent s = execNoticeSent s := rfl
  rw [harm, execNoticeSent, State.whenPowered_high _ _ hs, hx]

theorem exec_frameOpenSent {r : Fin 8} {alloc : Nat} (hx : (s.ports.get p).tx = some { source := .frameOpen r alloc, packet := k }) :
    exec (.frameOpenSent p) s
      = .next (((s.finishTx p k).setRecord r alloc fun d => { d with state := .opened, opening := none }).settle false) := by
  have harm : exec (.frameOpenSent p) s = execFrameOpenSent p s := rfl
  rw [harm, execFrameOpenSent, State.whenPowered_high _ _ hs, hx]

theorem exec_tileSegmentSent {r : Fin 8} {alloc rows : Nat} {last : Bool}
    (hx : (s.ports.get p).tx = some { source := .segment r alloc rows last, packet := k }) :
    exec (.tileSegmentSent p) s = .next (((s.finishTx p k).segmentSent p r alloc rows last).settle false) := by
  have harm : exec (.tileSegmentSent p) s = execTileSegmentSent p s := rfl
  rw [harm, execTileSegmentSent, State.whenPowered_high _ _ hs, hx]

theorem exec_tileAbortSent {r : Fin 8} {alloc : Nat} (hx : (s.ports.get p).tx = some { source := .tileAbort r alloc, packet := k }) :
    exec (.tileAbortSent p) s
      = .next ((((s.finishTx p k).setRecord r alloc fun d => { d with tileOpen := false, span := none }).endTile p).settle false) := by
  have harm : exec (.tileAbortSent p) s = execTileAbortSent p s := rfl
  rw [harm, execTileAbortSent, State.whenPowered_high _ _ hs, hx]

theorem exec_frameEndSent {r : Fin 8} {alloc : Nat} {revoked : Bool} {d : Delivery}
    (hx : (s.ports.get p).tx = some { source := .frameEnd r alloc revoked, packet := k }) (hd : s.recordOf r alloc = some d) :
    exec (.frameEndSent p) s
      = .next (((s.finishTx p k).finalize r d (if revoked then .revoked else .done)).settle false) := by
  have harm : exec (.frameEndSent p) s = execFrameEndSent p s := rfl
  have hd' : (s.finishTx p k).recordOf r alloc = some d := hd
  rw [harm, execFrameEndSent, State.whenPowered_high _ _ hs, hx]
  simp only [hd']

theorem exec_rereadSegmentSent {alloc rows : Nat} {last : Bool}
    (hx : (s.ports.get p).tx = some { source := .reread alloc rows last, packet := k }) :
    exec (.rereadSegmentSent p) s = .next (((s.finishTx p k).rereadSent p alloc rows last).settle false) := by
  have harm : exec (.rereadSegmentSent p) s = execRereadSegmentSent p s := rfl
  rw [harm, execRereadSegmentSent, State.whenPowered_high _ _ hs, hx]

end Exec

/-! ## Records and slots after a FRAME_END and after a reread -/

theorem State.setSlot_slot_same (s : State) (i : Nat) (f : Slot → Slot) (hf : f Slot.empty = Slot.empty) :
    (s.setSlot i f).slot i = f (s.slot i) := by
  by_cases hlt : i < s.slm.slots.length
  · rw [State.setSlot_slot _ _ _ _ hlt, if_pos rfl]
  · have hnone : (s.setSlot i f).slot i = Slot.empty := by
      rcases s.setSlot_slot_cases i i f with h | ⟨-, h⟩
      · rw [h, s.slot_of_le (Nat.not_lt.mp hlt)]
      · rw [h, s.slot_of_le (Nat.not_lt.mp hlt), hf]
    rw [hnone, s.slot_of_le (Nat.not_lt.mp hlt), hf]

theorem State.finalize_slot_same (s : State) (r : Fin 8) (d : Delivery) (x : RecordState) :
    (s.finalize r d x).slot d.slot
      = ({ s.slot d.slot with outstanding := (s.slot d.slot).outstanding.filter (· ≠ r) } : Slot).tested := by
  rw [State.finalize_eq, State.reportFinal, State.freeingTest_slot_same, State.setSlot_slot_same _ _ _ rfl, State.setRecord_slot]

theorem Slot.tested_not_mem {x : Slot} {r : Fin 8} (h : r ∉ x.outstanding) : r ∉ x.tested.outstanding := by
  rcases x.tested_cases with heq | ⟨-, hout, heq | heq⟩ <;> rw [heq]
  · exact h
  · exact h
  · exact List.not_mem_nil

theorem State.recordOf_setRecord_same {s : State} {r : Fin 8} {a : Nat} {d : Delivery} (h : s.recordOf r a = some d)
    {f : Delivery → Delivery} (hf : ∀ d, (f d).alloc = d.alloc) : (s.setRecord r a f).recordOf r a = some (f d) := by
  rw [State.recordOf_setRecord _ _ _ _ _ _ hf, if_pos ⟨rfl, rfl⟩, h]; rfl

/-- The record of a FRAME_END sent: gone with its slot, or final. -/
theorem State.finalize_recordOf {s : State} {r : Fin 8} {alloc : Nat} {d : Delivery} (hd : s.recordOf r alloc = some d) (x : RecordState) :
    (s.finalize r d x).recordOf r alloc = none ∧ ((s.finalize r d x).slot d.slot).state = .free
      ∨ (s.finalize r d x).recordOf r alloc = some (d.ended x) := by
  obtain ⟨-, rfl⟩ := State.recordOf_spec hd
  have hset : (s.setRecord r d.alloc fun y => y.ended x).recordOf r d.alloc = some (d.ended x) :=
    State.recordOf_setRecord_same hd fun _ => rfl
  rw [State.finalize_eq, State.reportFinal]
  generalize hv : (s.setRecord r d.alloc fun y => y.ended x).setSlot d.slot
    (fun x => { x with outstanding := x.outstanding.filter (· ≠ r) }) = v
  have hvrec : v.recordOf r d.alloc = some (d.ended x) := by rw [← hset, ← hv]; rfl
  rcases v.freeingTest_cases d.slot with ⟨-, h⟩ | ⟨-, -, -, ⟨-, h⟩ | ⟨-, h⟩⟩
  · rw [h]; exact .inr hvrec
  · rw [h]; exact .inr hvrec
  · rw [h]
    by_cases ha : (v.slot d.slot).alloc = d.alloc
    · refine .inl ⟨?_, by rw [State.freeSlot_slot, if_pos rfl]; rfl⟩
      rw [State.recordOf, State.freeSlot_records, ha]
      refine List.find?_eq_none.mpr fun e he => ?_
      simpa using (List.mem_filter.mp he).2
    · refine .inr ?_
      rw [← hvrec, State.recordOf, State.recordOf, State.freeSlot_records, List.find?_filter]
      congr 1
      funext e
      by_cases he : e.alloc = d.alloc
      · have hne : d.alloc ≠ (v.slot d.slot).alloc := fun h => ha h.symm
        simp [he, hne]
      · simp [he]

/-- The slot of a reread that has ended (R99). -/
theorem State.rereadEnded_slot_same {s : State} {i : Nat} (h : 1 ≤ (s.slot i).pendingRereads) :
    (s.rereadEnded i).slot i = (s.slot i).released (s.slot i).outstanding 1 := by
  have hset := s.setSlot_slot_same i (fun x => { x with pendingRereads := x.pendingRereads - 1 }) rfl
  unfold State.rereadEnded
  dsimp only
  rw [hset]
  unfold Slot.released
  dsimp only
  by_cases hone : (s.slot i).pendingRereads = 1
  · rw [if_pos (by omega)]
    by_cases hheld : (s.slot i).state = .held ∧ (s.slot i).releasePending = true
    · rw [if_pos hheld, State.freeSlot_slot, if_pos rfl, if_neg (by simp [hheld.1]), if_pos ⟨hheld.1, hone, by omega, hheld.2⟩]
    · rw [if_neg hheld, State.freeingTest_slot_same, hset]
      have hno : ¬ ((s.slot i).state = .held ∧ (s.slot i).pendingRereads = 1 ∧ 0 < 1 ∧ (s.slot i).releasePending = true) :=
        fun hx => hheld ⟨hx.1, hx.2.2.2⟩
      rw [if_neg hno]
      unfold Slot.tested
      simp [hone]
  · rw [if_neg (by omega), hset, if_neg fun hx => hone hx.2.2.1, if_neg fun hx => hone hx.2.1]

/-! ## Segments -/

/-- A segment sent in its record, before its tile ends (R133). -/
def State.segmented (s : State) (r : Fin 8) (alloc rows : Nat) (last : Bool) : State :=
  s.setRecord r alloc fun d => d.afterSegment (s.tilesPerBand d) rows last

section Segments

variable {s : State} {p : Port} {r : Fin 8} {alloc rows : Nat} {last : Bool}

theorem State.segmented_recordOf {d : Delivery} (hd : s.recordOf r alloc = some d) :
    (s.segmented r alloc rows last).recordOf r alloc = some (d.afterSegment (s.tilesPerBand d) rows last) :=
  State.recordOf_setRecord_same hd fun e => by unfold Delivery.afterSegment; split <;> rfl

theorem State.segmented_others {q : Fin 8} (hq : q ≠ r) : (s.segmented r alloc rows last).dle.records.get q = s.dle.records.get q := by
  rw [State.segmented, State.setRecord_get, if_neg hq]

theorem State.segmentSent_ends (h : last = true ∨ s.recordOf r alloc = none) :
    s.segmentSent p r alloc rows last = (s.segmented r alloc rows last).endTile p :=
  if_pos h

theorem State.segmentSent_more (h : s.recordOf r alloc ≠ none) :
    s.segmentSent p r alloc rows false = s.segmented r alloc rows false :=
  if_neg fun hx => hx.elim nofun h

/-- A change of a record that is not there changes nothing. -/
theorem State.setRecord_of_none (h : s.recordOf r alloc = none) (f : Delivery → Delivery) : s.setRecord r alloc f = s := by
  have hno : ∀ d ∈ s.dle.records.get r, ¬ d.alloc = alloc := fun d hd ha => by
    simpa [ha] using List.find?_eq_none.mp h d hd
  have hmap : (s.dle.records.get r).map (fun d => if d.alloc = alloc then f d else d) = s.dle.records.get r :=
    (List.map_congr_left fun d hd => if_neg (hno d hd)).trans (List.map_id _)
  rw [State.setRecord, State.setRecords, hmap]
  simp

theorem State.rereadSent_lost (h : ∀ e, (s.dle.rereads.get p).head? = some e → e.alloc ≠ alloc) :
    s.rereadSent p alloc rows last = s.endTile p := by
  unfold State.rereadSent
  cases he : s.dle.rereads.get p with
  | nil => rfl
  | cons e es => exact if_pos (h e (by rw [he]; rfl))

theorem State.rereadSent_head {e : Reread} {es : List Reread} (he : s.dle.rereads.get p = e :: es) (ha : e.alloc = alloc) :
    s.rereadSent p alloc rows last
      = if last then ((s.setRereads p fun _ => es).endTile p).rereadEnded e.slot
        else s.setRereads p fun _ => { e with next := e.next + rows, isOpen := true } :: es := by
  unfold State.rereadSent
  rw [he]
  exact if_neg fun hne => hne ha

end Segments

/-- Settles O50: packet by packet, each step the packet counted out and then its effect. -/
theorem packetsSentHaveTheirEffect : Obligations.PacketsSentHaveTheirEffect := by
  intro s p k hs
  have hsent := s.finishTx_sentBy p k
  have hsame : (s.finishTx p k).dle = s.dle ∧ (s.finishTx p k).slm = s.slm ∧ (s.finishTx p k).rnc = s.rnc := by simp
  refine ⟨fun hx => ?reply, fun hx => ?notice, fun r alloc d hx hd => ?frameOpen, fun r alloc rows last d plan hx hd hplan => ?segment,
    fun r alloc rows last hx hd => ?segmentLost, fun alloc rows last hx hlost => ?rereadLost, fun r alloc d hx hd => ?tileAbort,
    fun r alloc revoked d hx hd => ?frameEnd, fun alloc rows last e es hx he ha => ?reread⟩
  case reply =>
    have hout : s.sentBy p k (s.replyOut p k) := State.sentBy_setPort hsent _ fun _ => ⟨rfl, rfl, rfl⟩
    have hreplies : ((s.replyOut p k).ports.get p).replies = (s.ports.get p).replies.drop 1
        ∧ ((s.replyOut p k).ports.get p).notices = (s.ports.get p).notices := by
      simp [State.replyOut, State.finishTx, State.countPort]
    refine ⟨_, exec_replySent hs hx, ?_⟩
    split
    · next hdue =>
      obtain ⟨rfl, hpending, hnone⟩ := hdue
      refine ⟨hout, hreplies.1, hreplies.2, rfl, rfl, ?_⟩
      have hempty : s.ports.a.replies.drop 1 = [] := hreplies.1.symm.trans hnone
      simp [hpending, hempty]
    · next hdue =>
      refine ⟨hout, hreplies.1, hreplies.2, rfl, rfl, ?_⟩
      have hempty : (decide (p = .a) && s.rnc.resetPending && (s.ports.a.replies.drop 1).isEmpty) = false := by
        refine Bool.eq_false_iff.mpr fun h => hdue ?_
        simp only [Bool.and_eq_true, decide_eq_true_eq, List.isEmpty_iff] at h
        obtain ⟨⟨rfl, hpending⟩, hnone⟩ := h
        exact ⟨rfl, hpending, hreplies.1.trans hnone⟩
      rw [hempty, Bool.or_false]; rfl
  case notice =>
    have hsentA := s.finishTx_sentBy .a k
    refine ⟨_, exec_noticeSent hs hx, State.sentBy_setPort hsentA _ fun _ => ⟨rfl, rfl, rfl⟩, rfl, rfl, rfl, rfl, rfl⟩
  case frameOpen =>
    refine ⟨_, exec_frameOpenSent hs hx, State.sentBy_setRecord hsent _ _ _,
      State.recordOf_setRecord_same (s := s.finishTx p k) hd fun _ => rfl, by simp, by simp, fun q hq => ?_⟩
    rw [State.setRecord_get, if_neg hq]; rfl
  case segment =>
    have hset : s.sentBy p k ((s.finishTx p k).segmented r alloc rows last) := State.sentBy_setRecord hsent _ _ _
    have hdone := State.segmented_recordOf (s := s.finishTx p k) (rows := rows) (last := last) hd
    have hothers : ∀ q, q ≠ r → ((s.finishTx p k).segmented r alloc rows last).dle.records.get q = s.dle.records.get q :=
      fun q hq => State.segmented_others hq
    have hd' : (s.finishTx p k).recordOf r alloc = some d := hd
    refine ⟨_, exec_tileSegmentSent hs hx, ?_⟩
    cases last with
    | false =>
      rw [State.segmentSent_more (by rw [hd']; simp)]
      exact ⟨hset, rfl, rfl, hothers, fun _ => ⟨by simp [State.segmented, State.finishTx, State.countPort], hdone⟩, nofun⟩
    | true =>
      rw [State.segmentSent_ends (.inl rfl)]
      refine ⟨State.sentBy_endTile hset, rfl, rfl, hothers, nofun, fun _ => ⟨by rw [State.endTile, State.setPort_get, if_pos rfl], ?_⟩⟩
      exact hdone.trans (by rw [Delivery.afterSegment, if_pos rfl, State.tilesPerBand, hplan]; rfl)
  case segmentLost =>
    have hd' : (s.finishTx p k).recordOf r alloc = none := hd
    refine ⟨_, exec_tileSegmentSent hs hx, ?_⟩
    rw [State.segmentSent_ends (.inr hd'), State.segmented, State.setRecord_of_none hd']
    exact ⟨State.sentBy_endTile hsent, by rw [State.endTile, State.setPort_get, if_pos rfl], rfl, rfl, rfl⟩
  case rereadLost =>
    refine ⟨_, exec_rereadSegmentSent hs hx, ?_⟩
    rw [State.rereadSent_lost (s := s.finishTx p k) hlost]
    exact ⟨State.sentBy_endTile hsent, by rw [State.endTile, State.setPort_get, if_pos rfl], rfl, rfl, rfl⟩
  case tileAbort =>
    refine ⟨_, exec_tileAbortSent hs hx, State.sentBy_endTile (State.sentBy_setRecord hsent _ _ _), by simp, by simp, ?_, ?_,
      fun q hq => ?_⟩
    · rw [State.endTile, State.setPort_get, if_pos rfl]
    · exact State.recordOf_setRecord_same (s := s.finishTx p k) (f := fun d => { d with tileOpen := false, span := none }) hd
        fun _ => rfl
    · have := State.setRecord_get (s.finishTx p k) r q alloc (fun d => { d with tileOpen := false, span := none })
      rw [if_neg hq] at this
      exact this
  case frameEnd =>
    have hslot := (s.finishTx p k).finalize_slot_same r d (if revoked then .revoked else .done)
    have hd' : (s.finishTx p k).recordOf r alloc = some d := hd
    refine ⟨_, exec_frameEndSent hs hx hd, State.sentBy_after hsent (by simp) fun q _ => by simp, by simp, by simp, ?_, fun hmem => ?_, ?_⟩
    · rw [hslot]
      exact Slot.tested_not_mem (by simp)
    · refine hslot.trans (Slot.released_of_ne (x := s.slot d.slot) fun heq => ?_).symm
      have hin : r ∈ ((s.finishTx p k).slot d.slot).outstanding.filter (· ≠ r) := by rw [heq]; exact hmem
      simp at hin
    · rcases State.finalize_recordOf hd' (if revoked then .revoked else .done) with h | h
      · exact .inl h
      · exact .inr ⟨_, h, rfl, rfl⟩
  case reread =>
    have he' : (s.finishTx p k).dle.rereads.get p = e :: es := he
    refine ⟨_, exec_rereadSegmentSent hs hx, ?_⟩
    rw [State.rereadSent_head he' ha]
    have hset : ∀ es', s.sentBy p k ((s.finishTx p k).setRereads p fun _ => es') := fun es' =>
      State.sentBy_after hsent ⟨rfl, rfl, rfl⟩ fun _ _ => rfl
    cases last with
    | false => exact ⟨hset _, rfl, rfl, fun _ => ⟨by simp, rfl⟩, nofun⟩
    | true =>
      refine ⟨State.sentBy_after (State.sentBy_endTile (hset es)) (by simp) fun q _ => by simp, by simp, by simp, nofun,
        fun _ => ⟨by simp, by simp [State.endTile], fun hpending => ?_⟩⟩
      exact State.rereadEnded_slot_same (s := ((s.finishTx p k).setRereads p fun _ => es).endTile p) hpending

end Sys2Proof.Machine

/-! # Fill marks (R37, R58, R100, R102): what a list of fills does, and what the tests that follow leave of it -/

namespace Sys2Proof.Machine

/-- A FILLED mark asked for on a lane's fill path. -/
structure Fill where
  lane : Fin 8
  plane : Fin 4
  position : Int
  cause : FillCause

def State.fill (s : State) (f : Fill) : State := s.fillMark f.lane f.plane f.position f.cause

def State.fillAll (s : State) (fs : List Fill) : State := fs.foldl State.fill s

/-- The slot table of a state is that of another after a list of fills. -/
def FilledBy (fs : List Fill) (s t : State) : Prop := t.slm = (s.fillAll fs).slm

/-! ## One fill -/

/-- The rows a slot's fill-run list tells of, or its overflow flag (R102). -/
def Slot.runCovers (x : Slot) (l : Fin 8) (k : Fin 4) (c : FillCause) (row : Nat) : Prop :=
  x.overflow = true ∨ ∃ e ∈ x.fillRuns, e.lane = l ∧ e.plane = k ∧ e.cause = c ∧ e.first ≤ row ∧ row < e.first + e.count

theorem extendRun_covers {l : Fin 8} {k : Fin 4} {c : FillCause} {row : Nat} {es fs : List FillRun} (h : extendRun l k c row es = some fs) :
    (∃ e ∈ fs, e.lane = l ∧ e.plane = k ∧ e.cause = c ∧ e.first ≤ row ∧ row < e.first + e.count)
      ∧ ∀ e ∈ es, ∃ e' ∈ fs, e'.lane = e.lane ∧ e'.plane = e.plane ∧ e'.cause = e.cause ∧ e'.first = e.first ∧ e.count ≤ e'.count := by
  induction es generalizing fs with
  | nil => cases h
  | cons e es ih =>
    unfold extendRun at h
    split at h
    · next hhit =>
      obtain ⟨rfl, rfl, rfl, rfl⟩ := hhit
      cases h
      refine ⟨⟨_, List.mem_cons_self, rfl, rfl, rfl, Nat.le_add_right _ _, Nat.lt_succ_self _⟩, fun e' he' => ?_⟩
      rcases List.mem_cons.mp he' with rfl | he'
      · exact ⟨_, List.mem_cons_self, rfl, rfl, rfl, rfl, Nat.le_succ _⟩
      · exact ⟨e', List.mem_cons_of_mem _ he', rfl, rfl, rfl, rfl, le_refl _⟩
    · obtain ⟨gs, hg, rfl⟩ := Option.map_eq_some_iff.mp h
      obtain ⟨⟨e₁, he₁, hcov⟩, hold⟩ := ih hg
      refine ⟨⟨e₁, List.mem_cons_of_mem _ he₁, hcov⟩, fun e' he' => ?_⟩
      rcases List.mem_cons.mp he' with rfl | he'
      · exact ⟨e', List.mem_cons_self, rfl, rfl, rfl, rfl, le_refl _⟩
      · obtain ⟨e₂, he₂, hsame⟩ := hold e' he'
        exact ⟨e₂, List.mem_cons_of_mem _ he₂, hsame⟩

theorem Slot.addRun_covers (x : Slot) (l : Fin 8) (k : Fin 4) (c : FillCause) (row : Nat) : (x.addRun l k c row).runCovers l k c row := by
  unfold Slot.addRun
  split
  · next es he => exact .inr (extendRun_covers he).1
  · split
    · exact .inr ⟨_, List.mem_append_right _ List.mem_cons_self, rfl, rfl, rfl, le_refl _, Nat.lt_succ_self _⟩
    · exact .inl rfl

theorem Slot.runCovers_addRun {x : Slot} {l m : Fin 8} {k j : Fin 4} {c b : FillCause} {row n : Nat} (h : x.runCovers m j b n) :
    (x.addRun l k c row).runCovers m j b n := by
  unfold Slot.addRun
  split
  · next es he =>
    rcases h with h | ⟨e, hin, hl, hk, hc, hfirst, hlast⟩
    · exact .inl h
    · obtain ⟨e', hin', hl', hk', hc', hfirst', hcount⟩ := (extendRun_covers he).2 e hin
      exact .inr ⟨e', hin', hl'.trans hl, hk'.trans hk, hc'.trans hc, by omega, by omega⟩
  · split
    · rcases h with h | ⟨e, hin, hcov⟩
      · exact .inl h
      · exact .inr ⟨e, List.mem_append_left _ hin, hcov⟩
    · exact .inl rfl

theorem Slot.markOf_congr {x y : Slot} (h : y.marks = x.marks) (l : Fin 8) (k : Fin 4) (row : Nat) : y.markOf l k row = x.markOf l k row := by
  unfold Slot.markOf; rw [h]

theorem Slot.keeps_spec {x : Slot} {p : Int} (h : x.keeps p = true) : x.state = .opened ∧ x.start ≤ p := by
  simp only [Slot.keeps, Bool.and_eq_true, decide_eq_true_eq] at h
  exact ⟨h.1.1, h.1.2⟩

theorem Slot.empty_keeps (p : Int) : Slot.empty.keeps p = false := rfl

/-- The slot that keeps a position is the first that does (R100). -/
theorem State.keeper_iff (s : State) (p : Int) (i : Nat) :
    s.keeper p = some i ↔ (s.slot i).keeps p = true ∧ ∀ j < i, (s.slot j).keeps p = false := by
  unfold State.keeper
  rw [List.findIdx?_eq_some_iff_getElem]
  constructor
  · rintro ⟨hlt, hkeep, hfirst⟩
    refine ⟨by rw [s.slot_eq_getElem hlt]; exact hkeep, fun j hj => ?_⟩
    rw [s.slot_eq_getElem (hj.trans hlt)]
    simpa using hfirst j hj
  · rintro ⟨hkeep, hfirst⟩
    have hlt : i < s.slm.slots.length := by
      by_contra hge
      rw [s.slot_of_le (Nat.not_lt.mp hge), Slot.empty_keeps] at hkeep
      cases hkeep
    refine ⟨hlt, by rw [← s.slot_eq_getElem hlt]; exact hkeep, fun j hj => ?_⟩
    rw [← s.slot_eq_getElem (hj.trans hlt)]
    simpa using hfirst j hj

theorem State.keeper_congr {s t : State} (h : ∀ i p, (t.slot i).keeps p = (s.slot i).keeps p) (p : Int) : t.keeper p = s.keeper p := by
  refine Option.ext fun i => ?_
  rw [State.keeper_iff, State.keeper_iff]
  simp only [h]

section One

variable (s : State) (l : Fin 8) (k : Fin 4) (p : Int) (res : Resolution)

/-- A resolution changes one slot at most: the keeper's, where the row has no mark. -/
theorem State.resolve_slot (i : Nat) :
    (s.resolve l k p res).slot i
      = if s.keeper p = some i ∧ (s.slot i).markOf l k (p - (s.slot i).start).toNat = .unresolved then
          (s.slot i).resolved l k (p - (s.slot i).start).toNat res
        else s.slot i := by
  rcases s.resolve_cases l k p res with ⟨hno, h⟩ | ⟨j, hj, hmark, hslm⟩
  · rw [h, if_neg]
    rintro ⟨hk, hm⟩
    rcases hno with hno | ⟨j, hj, hno⟩
    · rw [hno] at hk; cases hk
    · rw [hj] at hk; cases hk; exact hno hm
  · have hlt : j < s.slm.slots.length := (List.findIdx?_eq_some_iff_getElem.mp hj).1
    have hslot : (s.resolve l k p res).slot i
        = (s.setSlot j fun _ => (s.slot j).resolved l k (p - (s.slot j).start).toNat res).slot i := by unfold State.slot; rw [hslm]; rfl
    rw [hslot, State.setSlot_slot _ _ _ _ hlt]
    by_cases hij : i = j
    · subst hij; rw [if_pos rfl, if_pos ⟨hj, hmark⟩]
    · rw [if_neg hij, if_neg fun h => hij (Option.some.inj (hj.symm.trans h.1)).symm]

theorem Slot.resolved_keeps (x : Slot) (row : Nat) (q : Int) : (x.resolved l k row res).keeps q = x.keeps q := by
  simp [Slot.keeps]

theorem State.resolve_keeper (q : Int) : (s.resolve l k p res).keeper q = s.keeper q := by
  refine State.keeper_congr (fun i q => ?_) q
  rw [State.resolve_slot]
  split
  · exact Slot.resolved_keeps _ _ _ _ _ _
  · rfl

theorem State.resolve_start (i : Nat) : ((s.resolve l k p res).slot i).start = (s.slot i).start := by
  rw [State.resolve_slot]
  split <;> simp

theorem State.resolve_alloc (i : Nat) : ((s.resolve l k p res).slot i).alloc = (s.slot i).alloc := by
  rw [State.resolve_slot]
  split <;> simp

/-- A row that has its mark keeps it. -/
theorem State.resolve_markOf_set {i : Nat} {m : Fin 8} {j : Fin 4} {n : Nat} (h : (s.slot i).markOf m j n ≠ .unresolved) :
    ((s.resolve l k p res).slot i).markOf m j n = (s.slot i).markOf m j n := by
  rw [State.resolve_slot]
  split
  · next hit =>
    rw [Slot.resolved_markOf, if_neg]
    rintro ⟨rfl, rfl, rfl⟩
    exact h hit.2
  · rfl

/-- A resolution of another lane, plane or position leaves a row that its slot keeps as it was. -/
theorem State.resolve_markOf_other {i : Nat} {m : Fin 8} {j : Fin 4} {q : Int} (hq : (s.slot i).start ≤ q)
    (h : ¬ (l = m ∧ k = j ∧ p = q)) :
    ((s.resolve l k p res).slot i).markOf m j (q - (s.slot i).start).toNat = (s.slot i).markOf m j (q - (s.slot i).start).toNat := by
  rw [State.resolve_slot]
  split
  · next hit =>
    obtain ⟨hk, -⟩ := hit
    have hstart := (Slot.keeps_spec ((State.keeper_iff _ _ _).mp hk).1).2
    rw [Slot.resolved_markOf, if_neg]
    rintro ⟨rfl, rfl, hrow⟩
    exact h ⟨rfl, rfl, by omega⟩
  · rfl

theorem State.resolve_markOf_lane {i : Nat} {m : Fin 8} (h : m ≠ l) (j : Fin 4) (n : Nat) :
    ((s.resolve l k p res).slot i).markOf m j n = (s.slot i).markOf m j n := by
  rw [State.resolve_slot]
  split
  · rw [Slot.resolved_markOf, if_neg fun hx => h hx.1.symm]
  · rfl

end One

theorem State.fillMark_covers {s : State} {l m : Fin 8} {k j : Fin 4} {p : Int} {c b : FillCause} {i n : Nat} (h : (s.slot i).runCovers m j b n) :
    ((s.fillMark l k p c).slot i).runCovers m j b n := by
  rw [State.fillMark, State.resolve_slot]
  split
  · exact Slot.runCovers_addRun h
  · exact h

/-- A fill reaches the row of the frame that keeps its position. -/
theorem State.fillMark_slot_hit {s : State} {l : Fin 8} {k : Fin 4} {p : Int} {c : FillCause} {i : Nat} (hi : s.keeper p = some i)
    (hrow : (s.slot i).markOf l k (p - (s.slot i).start).toNat = .unresolved) :
    ((s.fillMark l k p c).slot i).markOf l k (p - (s.slot i).start).toNat = .filled
      ∧ ((s.fillMark l k p c).slot i).runCovers l k c (p - (s.slot i).start).toNat := by
  rw [State.fillMark, State.resolve_slot, if_pos ⟨hi, hrow⟩]
  exact ⟨by rw [Slot.resolved_markOf, if_pos ⟨rfl, rfl, rfl⟩], Slot.addRun_covers _ _ _ _ _⟩

/-! ## A list of fills -/

section Many

variable {s t u : State} {fs gs : List Fill}

theorem State.fillAll_keeper (fs : List Fill) (s : State) (p : Int) : (s.fillAll fs).keeper p = s.keeper p := by
  induction fs generalizing s with
  | nil => rfl
  | cons f fs ih => exact (ih _).trans (s.resolve_keeper _ _ _ _ _)

theorem State.fillAll_start (fs : List Fill) (s : State) (i : Nat) : ((s.fillAll fs).slot i).start = (s.slot i).start := by
  induction fs generalizing s with
  | nil => rfl
  | cons f fs ih => exact (ih _).trans (s.resolve_start _ _ _ _ i)

theorem State.fillAll_alloc (fs : List Fill) (s : State) (i : Nat) : ((s.fillAll fs).slot i).alloc = (s.slot i).alloc := by
  induction fs generalizing s with
  | nil => rfl
  | cons f fs ih => exact (ih _).trans (s.resolve_alloc _ _ _ _ i)

theorem State.fillAll_markOf_set {i : Nat} {m : Fin 8} {j : Fin 4} {n : Nat} (h : (s.slot i).markOf m j n ≠ .unresolved) (fs : List Fill) :
    ((s.fillAll fs).slot i).markOf m j n = (s.slot i).markOf m j n := by
  induction fs generalizing s with
  | nil => rfl
  | cons f fs ih =>
    have hset := s.resolve_markOf_set f.lane f.plane f.position (.filled f.cause) h
    exact (ih (s := s.fill f) (by rw [State.fill, State.fillMark, hset]; exact h)).trans hset

theorem State.fillAll_covers {i : Nat} {m : Fin 8} {j : Fin 4} {b : FillCause} {n : Nat} (h : (s.slot i).runCovers m j b n) (fs : List Fill) :
    ((s.fillAll fs).slot i).runCovers m j b n := by
  induction fs generalizing s with
  | nil => exact h
  | cons f fs ih => exact ih (s := s.fill f) (State.fillMark_covers h)

/-- Fills elsewhere leave a row as it was. -/
theorem State.fillAll_markOf_other {i : Nat} {m : Fin 8} {j : Fin 4} {q : Int} (hq : (s.slot i).start ≤ q)
    (h : ∀ f ∈ fs, ¬ (f.lane = m ∧ f.plane = j ∧ f.position = q)) :
    ((s.fillAll fs).slot i).markOf m j (q - (s.slot i).start).toNat = (s.slot i).markOf m j (q - (s.slot i).start).toNat := by
  induction fs generalizing s with
  | nil => rfl
  | cons f fs ih =>
    have hstart : ((s.fill f).slot i).start = (s.slot i).start := s.resolve_start _ _ _ _ i
    have htail := ih (s := s.fill f) (hstart ▸ hq) fun g hg => h g (List.mem_cons_of_mem _ hg)
    rw [hstart] at htail
    exact htail.trans (s.resolve_markOf_other _ _ _ _ hq (h f List.mem_cons_self))

theorem State.fillAll_markOf_lane {i : Nat} {m : Fin 8} (h : ∀ f ∈ fs, f.lane ≠ m) (j : Fin 4) (n : Nat) :
    ((s.fillAll fs).slot i).markOf m j n = (s.slot i).markOf m j n := by
  induction fs generalizing s with
  | nil => rfl
  | cons f fs ih =>
    exact (ih (s := s.fill f) fun g hg => h g (List.mem_cons_of_mem _ hg)).trans
      (s.resolve_markOf_lane _ _ _ _ (h f List.mem_cons_self).symm _ _)

/-- A fill of the list marks its row, where no fill of another cause asks for the same row. -/
theorem State.fillAll_fills {f : Fill} {i : Nat} (hf : f ∈ fs)
    (hcause : ∀ g ∈ fs, g.lane = f.lane → g.plane = f.plane → g.position = f.position → g.cause = f.cause)
    (hi : s.keeper f.position = some i) (hrow : (s.slot i).markOf f.lane f.plane (f.position - (s.slot i).start).toNat = .unresolved) :
    ((s.fillAll fs).slot i).markOf f.lane f.plane (f.position - (s.slot i).start).toNat = .filled
      ∧ ((s.fillAll fs).slot i).runCovers f.lane f.plane f.cause (f.position - (s.slot i).start).toNat := by
  induction fs generalizing s with
  | nil => cases hf
  | cons g gs ih =>
    have hstart := (Slot.keeps_spec ((State.keeper_iff _ _ _).mp hi).1).2
    by_cases hsame : g.lane = f.lane ∧ g.plane = f.plane ∧ g.position = f.position
    · obtain ⟨hl, hk, hp⟩ := hsame
      have hc := hcause g List.mem_cons_self hl hk hp
      have hg : s.fill g = s.fillMark f.lane f.plane f.position f.cause := by rw [State.fill, hl, hk, hp, hc]
      obtain ⟨hmark, hcov⟩ := State.fillMark_slot_hit (c := f.cause) hi hrow
      rw [← hg] at hmark hcov
      have hset : ((s.fill g).slot i).markOf f.lane f.plane (f.position - (s.slot i).start).toNat ≠ .unresolved := by
        rw [hmark]; exact Mark.noConfusion
      exact ⟨(State.fillAll_markOf_set hset gs).trans hmark, State.fillAll_covers hcov gs⟩
    · have hin : f ∈ gs := (List.mem_cons.mp hf).resolve_left fun h => hsame ⟨by rw [h], by rw [h], by rw [h]⟩
      have hslot : ((s.fill g).slot i).start = (s.slot i).start := s.resolve_start _ _ _ _ i
      have hkeep : (s.fill g).keeper f.position = some i := (s.resolve_keeper _ _ _ _ _).trans hi
      have hother := (s.resolve_markOf_other g.lane g.plane g.position (.filled g.cause) hstart hsame).trans hrow
      have htail := ih (s := s.fill g) hin (fun g' hg' => hcause g' (List.mem_cons_of_mem _ hg')) hkeep (by rw [hslot]; exact hother)
      rw [hslot] at htail
      exact htail

theorem State.fill_slm_congr (h : t.slm = s.slm) (f : Fill) : (t.fill f).slm = (s.fill f).slm := by
  have hkeep (p : Int) : t.keeper p = s.keeper p := by unfold State.keeper; rw [h]
  have hslot (i : Nat) : t.slot i = s.slot i := by unfold State.slot; rw [h]
  unfold State.fill State.fillMark State.resolve
  rw [hkeep]
  cases s.keeper f.position with
  | none => exact h
  | some i =>
    dsimp only
    rw [hslot]
    split
    · have hset (y : Slot) : (t.setSlot i fun _ => y).slm = (s.setSlot i fun _ => y).slm := by unfold State.setSlot; rw [h]
      split <;> simpa using hset _
    · exact h

theorem State.fillAll_slm_congr (h : t.slm = s.slm) (fs : List Fill) : (t.fillAll fs).slm = (s.fillAll fs).slm := by
  induction fs generalizing s t with
  | nil => exact h
  | cons f fs ih => exact ih (State.fill_slm_congr h f)

theorem FilledBy.none (h : t.slm = s.slm) : FilledBy [] s t := h

theorem FilledBy.mark (s : State) (l : Fin 8) (k : Fin 4) (p : Int) (c : FillCause) :
    FilledBy [{ lane := l, plane := k, position := p, cause := c }] s (s.fillMark l k p c) := rfl

theorem FilledBy.trans (h : FilledBy fs s t) (h' : FilledBy gs t u) : FilledBy (fs ++ gs) s u := by
  unfold FilledBy State.fillAll at *
  rw [List.foldl_append, h']
  exact State.fillAll_slm_congr h gs

theorem FilledBy.after (h : FilledBy fs s t) (hslm : u.slm = t.slm) : FilledBy fs s u := hslm.trans h

theorem FilledBy.slot (h : FilledBy fs s t) (i : Nat) : t.slot i = (s.fillAll fs).slot i := by unfold State.slot; rw [h]

/-- A fold whose every step asks for a list of fills asks for them all, in order. -/
theorem FilledBy.foldl {β : Type} {op : State → β → State} {asks : β → List Fill} {Good : State → Prop}
    (hgood : ∀ s x, Good s → Good (op s x)) (hop : ∀ s x, Good s → FilledBy (asks x) s (op s x)) (xs : List β) (s : State) (hs : Good s) :
    FilledBy (xs.flatMap asks) s (xs.foldl op s) := by
  induction xs generalizing s with
  | nil => exact .none rfl
  | cons x xs ih =>
    rw [List.flatMap_cons]
    exact (hop s x hs).trans (ih _ (hgood s x hs))

end Many

/-! ## The tests that follow -/

/-- What a close test, a readiness test or nothing has made of a slot. -/
structure SlotLater (x y : Slot) : Prop where
  empty : x = Slot.empty → y = Slot.empty
  live : y = Slot.empty ∨ y.marks = x.marks ∧ y.alloc = x.alloc
    ∧ (y.state = .opened → x.state = .opened ∧ y.fillRuns = x.fillRuns ∧ y.overflow = x.overflow)

theorem SlotLater.refl (x : Slot) : SlotLater x x := ⟨id, .inr ⟨rfl, rfl, fun h => ⟨h, rfl, rfl⟩⟩⟩

theorem SlotLater.trans {x y z : Slot} (h : SlotLater x y) (h' : SlotLater y z) : SlotLater x z where
  empty hx := h'.empty (h.empty hx)
  live := by
    rcases h.live with hy | ⟨hm, ha, ho⟩
    · exact .inl (h'.empty hy)
    · rcases h'.live with hz | ⟨hm', ha', ho'⟩
      · exact .inl hz
      · refine .inr ⟨hm'.trans hm, ha'.trans ha, fun hz => ?_⟩
        obtain ⟨hy, hr', hv'⟩ := ho' hz
        obtain ⟨hx, hr, hv⟩ := ho hy
        exact ⟨hx, hr'.trans hr, hv'.trans hv⟩

/-- Every slot of a state is what the tests make of it in another. -/
def Later (s t : State) : Prop := ∀ i, SlotLater (s.slot i) (t.slot i)

theorem Later.trans {s t u : State} (h : Later s t) (h' : Later t u) : Later s u := fun i => (h i).trans (h' i)

theorem Later.of_slm {s t : State} (h : t.slm = s.slm) : Later s t := fun i => by
  have : t.slot i = s.slot i := by unfold State.slot; rw [h]
  rw [this]; exact .refl _

theorem SlotLater.tested (x : Slot) : SlotLater x x.tested where
  empty hx := by rw [hx]; rfl
  live := by
    rcases x.tested_cases with h | ⟨-, -, h | h⟩ <;> rw [h]
    · exact (SlotLater.refl x).live
    · exact .inr ⟨rfl, rfl, nofun⟩
    · exact .inl rfl

theorem SlotLater.closed (x : Slot) (rows : Nat) (reason : CloseReason) : SlotLater x (x.settled rows reason).tested where
  empty hx := by rw [hx]; rfl
  live := by
    rcases (x.settled rows reason).tested_cases with h | ⟨-, -, h | h⟩ <;> rw [h]
    · exact .inr ⟨rfl, rfl, nofun⟩
    · exact .inr ⟨rfl, rfl, nofun⟩
    · exact .inl rfl

theorem State.closeSlot_later (s : State) (i rows : Nat) (reason : CloseReason) : Later s (s.closeSlot i rows reason) := fun j => by
  by_cases hj : j = i
  · subst hj
    rw [State.closeSlot_eq, State.freeingTest_slot_same]
    rcases s.setSlot_slot_cases j j fun x => x.settled rows reason with h | ⟨-, h⟩ <;> rw [h]
    · exact .tested _
    · exact .closed _ _ _
  · have hsame : (s.closeSlot i rows reason).slot j = s.slot j :=
      (s.closeSlot_slot_cases i rows reason j).resolve_right fun h => hj h.1
    rw [hsame]; exact .refl _

theorem closePassing_later (high : Int) (fs : List OpenFrame) (s : State) : Later s (closePassing high fs s) := by
  induction fs generalizing s with
  | nil => exact .of_slm rfl
  | cons f fs ih =>
    rw [closePassing_cons]
    split
    · exact (s.closeSlot_later _ _ _).trans (ih _)
    · exact .of_slm rfl

theorem State.progressed_later (s : State) : Later s s.progressed :=
  Later.trans (closePassing_later s.ptk.high s.frt.openList s) fun i => by
    rw [State.progressed_slot, State.readySlot_eq]
    refine ⟨fun h => ?_, .inr ⟨rfl, rfl, fun h => ⟨h, rfl, rfl⟩⟩⟩
    rw [← State.readySlot_eq, State.readySlot_of_not_opened]
    · exact h
    · have h' : ((s.closeTest s.ptk.high).slot i) = Slot.empty := h
      rw [h']; exact SlotState.noConfusion

section Fills

variable {s t u : State} {fs : List Fill}

/-- A fill of a list marks its row whatever is asked for after the list. -/
theorem FilledBy.fills_first {gs : List Fill} (h : FilledBy (fs ++ gs) s t) (hu : Later t u) {l : Fin 8} {k : Fin 4} {p : Int} {c : FillCause}
    (hf : { lane := l, plane := k, position := p, cause := c } ∈ fs)
    (hcause : ∀ g ∈ fs, g.lane = l → g.plane = k → g.position = p → g.cause = c) : s.fills u l k p c := by
  have hstep (i : Nat) : t.slot i = ((s.fillAll fs).fillAll gs).slot i := by
    rw [h.slot, State.fillAll, List.foldl_append]; rfl
  rintro i row hi rfl hrow hlive -
  obtain ⟨hmark, hcov⟩ := State.fillAll_fills hf hcause hi hrow
  have hset : ((s.fillAll fs).slot i).markOf l k (p - (s.slot i).start).toNat ≠ .unresolved := by
    rw [hmark]; exact Mark.noConfusion
  have hmark' := (State.fillAll_markOf_set hset gs).trans hmark
  have hcov' := State.fillAll_covers hcov gs
  rw [← hstep] at hmark' hcov'
  rcases (hu i).live with hx | ⟨hmarks, -, hopened⟩
  · exact absurd (by rw [hx]; rfl) hlive
  · refine ⟨(Slot.markOf_congr hmarks _ _ _).trans hmark', fun ho => ?_⟩
    obtain ⟨-, hruns, hover⟩ := hopened ho
    rw [hruns, hover]
    exact hcov'

/-- What a list of fills and the tests after it come to for one of them. -/
theorem FilledBy.fills (h : FilledBy fs s t) (hu : Later t u) {l : Fin 8} {k : Fin 4} {p : Int} {c : FillCause}
    (hf : { lane := l, plane := k, position := p, cause := c } ∈ fs)
    (hcause : ∀ g ∈ fs, g.lane = l → g.plane = k → g.position = p → g.cause = c) : s.fills u l k p c :=
  FilledBy.fills_first (gs := []) (by rw [List.append_nil]; exact h) hu hf hcause

theorem FilledBy.keepsMarks (h : FilledBy fs s t) (hu : Later t u) {l : Fin 8} (hl : ∀ f ∈ fs, f.lane ≠ l) : s.keepsMarks u l := by
  intro i k row hlive
  rcases (hu i).live with hx | ⟨hmarks, -, -⟩
  · exact absurd (by rw [hx]; rfl) hlive
  · rw [Slot.markOf_congr hmarks, h.slot, State.fillAll_markOf_lane hl]

end Fills

end Sys2Proof.Machine

/-! # Lanes: link reports, refused packets, and the records a deadline takes (R48, R49, R51, R52, R57, R58) -/

namespace Sys2Proof.Machine

/-! ## Records resolved (R50, R58) -/

/-- The fill that a record resolved with a cause asks for: none where its rejoin flag says it is marked already (R50). -/
def TrigRecord.asks (q : TrigRecord) (l : Fin 8) (offset : Nat) (c : FillCause) : List Fill :=
  if q.rejoin then [] else [{ lane := l, plane := q.plane, position := q.tick - (offset : Int), cause := c }]

theorem TrigRecord.mem_asks {q : TrigRecord} {l : Fin 8} {offset : Nat} {c : FillCause} {f : Fill} (h : f ∈ q.asks l offset c) :
    q.rejoin = false ∧ f = { lane := l, plane := q.plane, position := q.tick - (offset : Int), cause := c } := by
  unfold TrigRecord.asks at h
  split at h
  · cases h
  · next hr => exact ⟨by simpa using hr, List.mem_singleton.mp h⟩

theorem TrigRecord.asks_plain {q : TrigRecord} (h : q.rejoin = false) (l : Fin 8) (offset : Nat) (c : FillCause) :
    { lane := l, plane := q.plane, position := q.tick - (offset : Int), cause := c } ∈ q.asks l offset c := by
  rw [TrigRecord.asks, h]; exact List.mem_singleton.mpr rfl

section Records

variable {s : State} {l : Fin 8} {offset : Nat}

theorem State.resolveRecord_filledBy (h : (s.lanes.get l).record.offset = offset) (c : FillCause) (q : TrigRecord) :
    FilledBy (q.asks l offset c) s (s.resolveRecord l c q) := by
  subst h
  unfold State.resolveRecord TrigRecord.asks
  split
  · exact .none rfl
  · exact .mark s l q.plane _ c

theorem State.resolveRecords_filledBy (h : (s.lanes.get l).record.offset = offset) (c : FillCause) (qs : List TrigRecord) :
    FilledBy (qs.flatMap fun q => q.asks l offset c) s (qs.foldl (fun s q => s.resolveRecord l c q) s) :=
  FilledBy.foldl (Good := fun s => (s.lanes.get l).record.offset = offset) (fun _ _ hs => by simpa using hs)
    (fun _ q hs => State.resolveRecord_filledBy hs c q) qs s h

theorem State.loseRecords_filledBy (h : (s.lanes.get l).record.offset = offset) (qs : List TrigRecord) :
    FilledBy (qs.flatMap fun q => q.asks l offset .lost) s (qs.foldl (fun s q => s.loseRecord l q) s) := by
  refine FilledBy.foldl (Good := fun s => (s.lanes.get l).record.offset = offset) (fun _ _ hs => by simpa using hs)
    (fun s q hs => ?_) qs s h
  have hcounted : FilledBy [] s (s.countLane l fun c => { c with lost := countUp 1 c.lost }) := .none (by simp)
  exact hcounted.trans (State.resolveRecord_filledBy (by simpa using hs) .lost q)

/-- The lost counter alone moves as records are lost, by one each while it has room (R57, R184). -/
theorem State.loseRecords_lost (l : Fin 8) (qs : List TrigRecord) (s : State) :
    ∃ n, (qs.foldl (fun s q => s.loseRecord l q) s).ntu.counters.lanes
        = s.ntu.counters.lanes.set l { s.ntu.counters.lanes.get l with lost := n }
      ∧ ((s.ntu.counters.lanes.get l).lost + qs.length ≤ 4294967295 → n = (s.ntu.counters.lanes.get l).lost + qs.length) := by
  induction qs generalizing s with
  | nil => exact ⟨_, (Eight.set_get_self _ _).symm, fun _ => rfl⟩
  | cons q qs ih =>
    obtain ⟨n, hn, hcount⟩ := ih (s.loseRecord l q)
    have hone : (s.loseRecord l q).ntu.counters.lanes
        = s.ntu.counters.lanes.set l { s.ntu.counters.lanes.get l with lost := countUp 1 (s.ntu.counters.lanes.get l).lost } := by
      rw [State.loseRecord, (State.resolveRecord_counters _ _ _ _).1]; rfl
    refine ⟨n, ?_, fun hle => ?_⟩
    · rw [List.foldl_cons, hn, hone, Eight.get_set_self]
      exact Eight.set_set_self _ _ _ _
    · rw [hone, Eight.get_set_self, countUp_one] at hcount
      rw [List.length_cons] at hle ⊢
      dsimp only at hcount
      rw [hcount (by omega)]
      omega

end Records

/-! ## The steps' ends -/

@[simp] theorem State.settleFrom_frame (t s : State) :
    (t.settleFrom s).now = t.now ∧ (t.settleFrom s).ptk = t.ptk ∧ (t.settleFrom s).tru = t.tru ∧ (t.settleFrom s).lanes = t.lanes ∧
    (t.settleFrom s).frt = t.frt ∧ (t.settleFrom s).slm = t.slm ∧ (t.settleFrom s).layout = t.layout ∧
    (t.settleFrom s).dle.routes = t.dle.routes ∧ (t.settleFrom s).rnc = t.rnc ∧ (t.settleFrom s).ntu = t.ntu := by
  simp [State.settleFrom]

theorem State.sameDelivery_settleFrom {s t : State} (h : s.sameDelivery t) (u : State) : s.sameDelivery (t.settleFrom u) := by
  unfold State.settleFrom
  exact State.sameDelivery_settle h _

theorem State.settleFrom_later (t s : State) : Later t (t.settleFrom s) := .of_slm (by simp [State.settleFrom])

theorem State.tested_later (t s : State) : Later t (t.progressed.settleFrom s) := t.progressed_later.trans (State.settleFrom_later _ s)

/-! ## Deadlines (R57) -/

theorem drop_takeWhile_length {α : Type} (p : α → Bool) (xs : List α) : xs.drop (xs.takeWhile p).length = xs.dropWhile p := by
  conv_lhs => enter [2]; rw [← List.takeWhile_append_dropWhile (p := p) (l := xs)]
  exact List.drop_left

section Expiry

variable {s : State} {l : Fin 8}

theorem exec_lineTimeout {q : TrigRecord} {qs : List TrigRecord} (hs : s.pwrOk = true) (hq : (s.lanes.get l).queue = q :: qs) :
    exec (.lineTimeout l) s = .next ((((s.advanceTo q.deadline).expireRecords l).progressed).settleFrom s) := by
  have harm : exec (.lineTimeout l) s = execLineTimeout l s := rfl
  rw [harm, execLineTimeout, State.whenPowered_high _ _ hs, hq]

theorem exec_lineTimeout_empty (hq : (s.lanes.get l).queue = []) : exec (.lineTimeout l) s = .next s := by
  have harm : exec (.lineTimeout l) s = execLineTimeout l s := rfl
  rw [harm, execLineTimeout, State.whenPowered, hq]
  split <;> rfl

/-- What is left of a lane when the records that have lapsed are gone. -/
def State.unexpired (s : State) (l : Fin 8) : State :=
  s.setLane l fun n => { n with queue := (s.lanes.get l).queue.drop (expired s.now (s.lanes.get l).queue).length }

theorem State.expireRecords_eq (s : State) (l : Fin 8) :
    s.expireRecords l = (expired s.now (s.lanes.get l).queue).foldl (fun s q => s.loseRecord l q) (s.unexpired l) := rfl

theorem State.expireRecords_lanes (s : State) (l : Fin 8) : (s.expireRecords l).lanes = (s.unexpired l).lanes := by
  rw [State.expireRecords_eq]; simp

end Expiry

/-- Settles O44: the lapsed records are lost one by one, and the tests that follow leave their marks. -/
theorem deadlinesTakeRecordsFromTheHead : Obligations.DeadlinesTakeRecordsFromTheHead := by
  intro l s hs
  refine ⟨exec_lineTimeout_empty, fun q qs hq => ?_⟩
  refine ⟨_, exec_lineTimeout hs hq, ?_⟩
  generalize hv : s.advanceTo q.deadline = v
  have hvnow : v.now = max s.now q.deadline := by rw [← hv]; rfl
  have hvlanes : v.lanes = s.lanes := by rw [← hv]; rfl
  have hvslm : v.slm = s.slm := by rw [← hv]; rfl
  have hvframe : v.ptk = s.ptk ∧ v.tru = s.tru ∧ v.layout = s.layout ∧ v.rnc = s.rnc ∧ v.slm.store = s.slm.store
      ∧ v.dle.routes = s.dle.routes ∧ v.ntu = s.ntu := by rw [← hv]; simp
  obtain ⟨hptk, htru, hlayout, hrnc, hstore, hroutes, hntu⟩ := hvframe
  have hnow : ((v.expireRecords l).progressed.settleFrom s).now = v.now := by
    rw [(State.settleFrom_frame _ _).1]; simp [State.expireRecords_eq, State.unexpired]
  have hlanes : ((v.expireRecords l).progressed.settleFrom s).lanes = (v.unexpired l).lanes := by
    rw [(State.settleFrom_frame _ _).2.2.2.1, ← v.expireRecords_lanes]; simp
  have hqueue : (v.lanes.get l).queue.drop (expired v.now (v.lanes.get l).queue).length
      = (s.lanes.get l).queue.dropWhile fun x => x.deadline ≤ v.now := by
    rw [hvlanes]; exact drop_takeWhile_length _ _
  have hlane : ((v.expireRecords l).progressed.settleFrom s).lanes.get l
      = { s.lanes.get l with queue := (s.lanes.get l).queue.dropWhile fun x => x.deadline ≤ v.now } := by
    rw [hlanes, State.unexpired, State.setLane_get_self, hqueue, hvlanes]
  have hhead : (s.lanes.get l).queue.dropWhile (fun x => x.deadline ≤ v.now) = qs.dropWhile fun x => x.deadline ≤ v.now := by
    rw [hq, List.dropWhile_cons_of_pos (by simp [hvnow])]
  have hfilled := State.loseRecords_filledBy (s := v.unexpired l) (l := l) (offset := (s.lanes.get l).record.offset)
    (by rw [State.unexpired, State.setLane_get_self, hvlanes]) (expired v.now (v.lanes.get l).queue)
  obtain ⟨n, hn, hlost⟩ := State.loseRecords_lost l (expired v.now (v.lanes.get l).queue) (v.unexpired l)
  rw [← v.expireRecords_eq] at hfilled hn
  have hun : (v.unexpired l).ntu = s.ntu := by rw [← hntu]; rfl
  rw [hun] at hn hlost
  refine ⟨hnow.trans hvnow, ?_, ?_, fun x hx hr => ?_, fun hroom => ?_, fun m hm => ?_, ?_, ?_, ?_, ?_, ?_, ?_⟩
  · rw [hnow]; exact hlane
  · rw [hlane]
    dsimp only
    rw [hhead, hq, List.length_cons]
    exact Nat.lt_succ_of_le (List.dropWhile_sublist _).length_le
  · rw [hnow] at hx
    have hstart : FilledBy [] s (v.unexpired l) := .none (by rw [← hvslm]; rfl)
    refine (hstart.trans hfilled).fills (State.tested_later _ s) ?_ fun g hg _ _ _ => ?_
    · rw [hvlanes]
      exact List.mem_append_right _ (List.mem_flatMap.mpr ⟨x, hx, TrigRecord.asks_plain hr _ _ _⟩)
    · obtain ⟨y, -, hy⟩ := List.mem_flatMap.mp hg
      rw [(TrigRecord.mem_asks hy).2]
  · have hsplit := congrArg List.length
      (List.takeWhile_append_dropWhile (p := fun x : TrigRecord => decide (x.deadline ≤ v.now)) (l := (s.lanes.get l).queue))
    rw [List.length_append] at hsplit
    have hlost' : n = (s.ntu.counters.lanes.get l).lost + (expired v.now (s.lanes.get l).queue).length := by
      rw [hvlanes] at hlost
      exact hlost (by unfold expired; omega)
    have hntu' : ((v.expireRecords l).progressed.settleFrom s).ntu = (v.expireRecords l).ntu := by
      rw [(State.settleFrom_frame _ _).2.2.2.2.2.2.2.2.2]; simp
    rw [hntu', hn, Eight.get_set_self, hlane]
    dsimp only
    rw [hlost']
    unfold expired
    omega
  · rw [hlanes, State.unexpired, State.setLane_get, if_neg hm, hvlanes]
  all_goals simp [State.settleFrom, State.expireRecords_eq, State.unexpired, *]

/-! ## Link reports (R48, R49) -/

section Links

variable {s : State} {l : Fin 8}

theorem exec_laneLinkUp (hs : s.pwrOk = true) : exec (.laneLinkUp l) s = .next ((s.laneUp l).settle false) := by
  have harm : exec (.laneLinkUp l) s = execLaneLinkUp l s := rfl
  rw [harm, execLaneLinkUp, State.whenPowered_high _ _ hs]

theorem exec_laneLinkLoss (hs : s.pwrOk = true) : exec (.laneLinkLoss l) s = .next ((s.laneLost l).settleFrom s) := by
  have harm : exec (.laneLinkLoss l) s = execLaneLinkLoss l s := rfl
  rw [harm, execLaneLinkLoss, State.whenPowered_high _ _ hs]

/-- A lane whose link has come up (R48). -/
def State.laneIn (s : State) (l : Fin 8) : State :=
  s.setLane l fun n => { n with linkUp := true, state := if s.rnc.runState = .config then .ready else .rejoin }

theorem State.laneUp_down (hup : (s.lanes.get l).linkUp = false) (hdown : (s.lanes.get l).state = .down) :
    s.laneUp l = (s.laneIn l).raise .laneUp (lane := some l) := by
  unfold State.laneUp State.laneIn
  simp [hup, hdown, State.setLane_setLane]

theorem State.laneUp_other (h : ¬ ((s.lanes.get l).linkUp = false ∧ (s.lanes.get l).state = .down)) :
    s.laneUp l = s.setLane l fun n => { n with linkUp := true } := by
  unfold State.laneUp
  dsimp only
  by_cases hup : (s.lanes.get l).linkUp = true
  · rw [if_pos hup]
    have hsame : ({ s.lanes.get l with linkUp := true } : Lane) = s.lanes.get l := by rw [← hup]
    rw [State.setLane, hsame]
    simp
  · rw [if_neg hup, if_neg fun hd => h ⟨by simpa using hup, hd⟩]

/-- The fills a link loss asks for (R49). -/
def Lane.outFills (n : Lane) (l : Fin 8) : List Fill :=
  n.queue.flatMap (fun q => q.asks l n.record.offset .laneDown)
    ++ n.placements.map fun y => { lane := l, plane := y.plane, position := y.position, cause := .laneDown }

theorem Lane.outFills_cause {n : Lane} {f : Fill} (h : f ∈ n.outFills l) : f.cause = .laneDown := by
  rcases List.mem_append.mp h with h | h
  · obtain ⟨q, -, hq⟩ := List.mem_flatMap.mp h
    rw [(TrigRecord.mem_asks hq).2]
  · obtain ⟨y, -, rfl⟩ := List.mem_map.mp h
    rfl

theorem State.laneOutMarked_filledBy (s : State) (l : Fin 8) : FilledBy ((s.lanes.get l).outFills l) s (s.laneOutMarked l) := by
  have hout : FilledBy [] s (s.laneOut l) := .none rfl
  have hrecords := State.resolveRecords_filledBy (s := s.laneOut l) (l := l) (offset := (s.lanes.get l).record.offset)
    (by simp [State.laneOut]) .laneDown (s.lanes.get l).queue
  have hplaces := FilledBy.foldl (op := fun s (y : Placement) => s.fillMark l y.plane y.position .laneDown)
    (asks := fun y => [{ lane := l, plane := y.plane, position := y.position, cause := .laneDown }]) (Good := fun _ => True)
    (fun _ _ _ => trivial) (fun s y _ => .mark s l y.plane y.position .laneDown) (s.lanes.get l).placements
    ((s.lanes.get l).queue.foldl (fun s q => s.resolveRecord l .laneDown q) (s.laneOut l)) trivial
  have h := (hout.trans hrecords).trans hplaces
  rw [List.nil_append, ← List.map_eq_flatMap] at h
  exact h

theorem State.laneOutMarked_frame (s : State) (l : Fin 8) :
    (s.laneOutMarked l).lanes = (s.laneOut l).lanes ∧ (s.laneOutMarked l).ptk = s.ptk ∧ (s.laneOutMarked l).tru = s.tru
      ∧ (s.laneOutMarked l).layout = s.layout ∧ (s.laneOutMarked l).rnc = s.rnc ∧ (s.laneOutMarked l).slm.store = s.slm.store
      ∧ (s.laneOutMarked l).ntu.counters.lanes = s.ntu.counters.lanes := by
  have h := foldl_keeps (fun s : State => (s.lanes, s.ptk, s.tru, s.layout, s.rnc, s.slm.store, s.ntu.counters.lanes))
    (fun s (y : Placement) => s.fillMark l y.plane y.position .laneDown) (by intro s x; simp) (s.lanes.get l).placements
    ((s.lanes.get l).queue.foldl (fun s q => s.resolveRecord l .laneDown q) (s.laneOut l))
  have h' := foldl_keeps (fun s : State => (s.lanes, s.ptk, s.tru, s.layout, s.rnc, s.slm.store, s.ntu.counters.lanes))
    (fun s q => s.resolveRecord l .laneDown q) (by intro s x; simp) (s.lanes.get l).queue (s.laneOut l)
  have hall := h.trans h'
  simp only [Prod.mk.injEq] at hall
  exact hall

end Links

/-- Settles O41: a link-up report, then a link loss in a lane that is out and in one that is live. -/
theorem laneLinksMoveTheLane : Obligations.LaneLinksMoveTheLane := by
  intro l s hs
  refine ⟨⟨_, exec_laneLinkUp hs, ?_⟩, ⟨_, exec_laneLinkLoss hs, ?_⟩⟩
  · by_cases hcase : (s.lanes.get l).linkUp = false ∧ (s.lanes.get l).state = .down
    · obtain ⟨hup, hdown⟩ := hcase
      rw [State.laneUp_down hup hdown]
      refine ⟨?_, fun m hm => ?_, fun _ _ => ?_, fun hno => ?_, ?_, ?_, ?_, ?_, ?_, ?_, ?_, ?_⟩
      · simp [State.laneIn, hup, hdown]
      · simp [State.laneIn, State.setLane_get, hm]
      · simp [State.maskHas_raise]
      · rcases hno with hno | hno
        · exact absurd (hup.symm.trans hno) nofun
        · exact absurd hdown hno
      case refine_12 => exact State.sameDelivery_settle (State.sameDelivery_of_dle (by simp [State.laneIn])) false
      all_goals simp [State.laneIn]
    · rw [State.laneUp_other hcase]
      refine ⟨?_, fun m hm => ?_, fun hup hdown => absurd ⟨hup, hdown⟩ hcase, fun _ => ?_, ?_, ?_, ?_, ?_, ?_, ?_, ?_, ?_⟩
      · simp [hcase]
      · simp [State.setLane_get, hm]
      case refine_11 => exact State.sameDelivery_settle (State.sameDelivery_of_dle (by simp)) false
      all_goals simp
  · obtain ⟨hlanes, hptk, htru, hlayout, hrnc, hstore, hcounters⟩ := s.laneOutMarked_frame l
    cases hlive : (s.lanes.get l).state.live with
    | false =>
      rw [State.laneLost_idle hlive]
      refine ⟨fun m hm => by simp [State.setLane_get, hm], fun _ => ?_, fun h => ?_, ?_⟩
      · refine ⟨by simp, by simp, by simp, by simp, ?_⟩
        exact State.sameDelivery_settleFrom (State.sameDelivery_of_dle (by simp)) s
      · rcases h with h | h | h <;> rw [h] at hlive <;> cases hlive
      · simp
    | true =>
      rw [State.laneLost_live hlive]
      refine ⟨fun m hm => ?_, fun h => ?_, fun _ => ⟨?_, ?_, fun q hq hr => ?_, fun y hy => ?_⟩, ?_⟩
      · simp [hlanes, State.laneOut, State.setLane_get, hm]
      · rcases h with h | h <;> rw [h] at hlive <;> cases hlive
      · simp [hlanes, State.laneOut]
      · simp [State.maskHas_raise]
      · refine ((s.laneOutMarked_filledBy l).after (by simp)).fills (State.tested_later _ s) ?_ fun g hg _ _ _ => Lane.outFills_cause hg
        exact List.mem_append_left _ (List.mem_flatMap.mpr ⟨q, hq, TrigRecord.asks_plain hr _ _ _⟩)
      · refine ((s.laneOutMarked_filledBy l).after (by simp)).fills (State.tested_later _ s) ?_ fun g hg _ _ _ => Lane.outFills_cause hg
        exact List.mem_append_right _ (List.mem_map.mpr ⟨y, hy, rfl⟩)
      · simp [hptk, htru, hlayout, hrnc, hstore, hcounters]

end Sys2Proof.Machine

/-! # Packets on a lane: refused ones, and LINEs that take their records (R51 to R58, R100, R101, R111) -/

namespace Sys2Proof.Machine

/-! ## The tests of lane progress read no counters -/

/-- A state with another notices and counters block. -/
def State.withNtu (s : State) (n : Ntu) : State := { s with ntu := n }

theorem State.closeSlot_withNtu (s : State) (n : Ntu) (i rows : Nat) (reason : CloseReason) :
    (s.withNtu n).closeSlot i rows reason = (s.closeSlot i rows reason).withNtu n := by
  rw [State.closeSlot_eq, State.closeSlot_eq]
  generalize hv : (s.setSlot i fun x => x.settled rows reason) = v
  have hw : ((s.withNtu n).setSlot i fun x => x.settled rows reason) = v.withNtu n := by rw [← hv]; rfl
  rw [hw]
  have hslot : (v.withNtu n).slot i = v.slot i := rfl
  unfold State.freeingTest
  dsimp only
  rw [hslot]
  split
  · split <;> rfl
  · rfl

theorem closePassing_withNtu (high : Int) (n : Ntu) (fs : List OpenFrame) (s : State) :
    closePassing high fs (s.withNtu n) = (closePassing high fs s).withNtu n := by
  induction fs generalizing s with
  | nil => rfl
  | cons f fs ih =>
    rw [closePassing_cons, closePassing_cons]
    have hpasses : (s.withNtu n).passes high f = s.passes high f := rfl
    rw [hpasses]
    split
    · rw [State.fullClose, State.closeSlot_withNtu]; exact ih _
    · rfl

theorem State.progressed_withNtu (s : State) (n : Ntu) : (s.withNtu n).progressed = s.progressed.withNtu n := by
  have hclose : (s.withNtu n).closeTest s.ptk.high = (s.closeTest s.ptk.high).withNtu n :=
    closePassing_withNtu s.ptk.high n s.frt.openList s
  have hleft : (s.withNtu n).progressed = ((s.withNtu n).closeTest s.ptk.high).readinessTest := rfl
  rw [hleft, hclose]
  rfl

/-! ## Placements (R56, R111) -/

/-- Placements first in line that no frame keeps complete at once, each counted while the counter has room. -/
theorem State.dropOrphans_spec (s : State) (l : Fin 8) (ys : List Placement) :
    ∃ k n, (s.dropOrphans l ys).lanes = s.lanes.set l { s.lanes.get l with placements := ys.drop k }
      ∧ (s.dropOrphans l ys).ntu.counters.lanes = s.ntu.counters.lanes.set l { s.ntu.counters.lanes.get l with linesWritten := n }
      ∧ (∀ y ∈ ys.take k, y.place = none) ∧ (∀ y, (ys.drop k).head? = some y → y.place ≠ none)
      ∧ ((s.ntu.counters.lanes.get l).linesWritten + ys.length ≤ 4294967295 →
          n + (ys.drop k).length = (s.ntu.counters.lanes.get l).linesWritten + ys.length) := by
  induction ys generalizing s with
  | nil => exact ⟨0, _, rfl, (Eight.set_get_self _ _).symm, nofun, nofun, fun _ => rfl⟩
  | cons y ys ih =>
    unfold State.dropOrphans
    cases hy : y.place with
    | some pl =>
      refine ⟨0, _, rfl, (Eight.set_get_self _ _).symm, nofun, fun z hz => ?_, fun _ => rfl⟩
      cases Option.some.inj hz
      rw [hy]; exact nofun
    | none =>
      obtain ⟨k, n, hlanes, hcounters, horphans, hhead, hcount⟩ := ih (s.countLane l fun c => { c with linesWritten := countUp 1 c.linesWritten })
      refine ⟨k + 1, n, hlanes, ?_, fun z hz => ?_, hhead, fun hroom => ?_⟩
      · dsimp only
        rw [hcounters, State.countLane]
        simp
      · rcases List.mem_cons.mp hz with rfl | hz
        · exact hy
        · exact horphans z hz
      · have hone : ((s.countLane l fun c => { c with linesWritten := countUp 1 c.linesWritten }).ntu.counters.lanes.get l).linesWritten
            = countUp 1 (s.ntu.counters.lanes.get l).linesWritten := by simp [State.countLane]
        rw [hone, countUp_one] at hcount
        rw [List.length_cons] at hroom ⊢
        rw [List.drop_succ_cons]
        omega

/-! ## What a packet on a lane leaves of the others -/

/-- From one state to another no lane and no lane counter changes but those of one lane. -/
def OnlyLane (l : Fin 8) (s t : State) : Prop :=
  (∃ n, t.lanes = s.lanes.set l n) ∧ ∃ c, t.ntu.counters.lanes = s.ntu.counters.lanes.set l c

section OnlyLane

variable {l : Fin 8} {s t u : State}

theorem OnlyLane.of_same (hlanes : t.lanes = s.lanes) (hcounters : t.ntu.counters.lanes = s.ntu.counters.lanes) : OnlyLane l s t :=
  ⟨⟨_, hlanes.trans (Eight.set_get_self _ _).symm⟩, ⟨_, hcounters.trans (Eight.set_get_self _ _).symm⟩⟩

theorem OnlyLane.trans (h : OnlyLane l s t) (h' : OnlyLane l t u) : OnlyLane l s u := by
  obtain ⟨⟨n, hn⟩, c, hc⟩ := h
  obtain ⟨⟨n', hn'⟩, c', hc'⟩ := h'
  exact ⟨⟨n', by rw [hn', hn, Eight.set_set_self]⟩, c', by rw [hc', hc, Eight.set_set_self]⟩

theorem OnlyLane.others (h : OnlyLane l s t) {m : Fin 8} (hm : m ≠ l) :
    t.lanes.get m = s.lanes.get m ∧ t.ntu.counters.lanes.get m = s.ntu.counters.lanes.get m := by
  obtain ⟨⟨n, hn⟩, c, hc⟩ := h
  rw [hn, hc]
  exact ⟨Eight.get_set_ne _ _ hm, Eight.get_set_ne _ _ hm⟩

theorem State.countLane_only (s : State) (l : Fin 8) (f : LaneCounters → LaneCounters) : OnlyLane l s (s.countLane l f) :=
  ⟨⟨_, (Eight.set_get_self _ _).symm⟩, _, rfl⟩

theorem State.setLane_only (s : State) (l : Fin 8) (f : Lane → Lane) : OnlyLane l s (s.setLane l f) :=
  ⟨⟨_, rfl⟩, _, (Eight.set_get_self _ _).symm⟩

theorem State.resolveRecord_only (s : State) (l : Fin 8) (c : FillCause) (q : TrigRecord) : OnlyLane l s (s.resolveRecord l c q) :=
  .of_same (by simp) (by simp)

theorem State.loseRecords_only (s : State) (l : Fin 8) (qs : List TrigRecord) :
    OnlyLane l s (qs.foldl (fun s q => s.loseRecord l q) s) := by
  obtain ⟨n, hn, -⟩ := State.loseRecords_lost l qs s
  exact ⟨⟨_, by rw [Eight.set_get_self]; simp⟩, _, hn⟩

theorem State.dropOrphans_only (s : State) (l : Fin 8) (ys : List Placement) : OnlyLane l s (s.dropOrphans l ys) := by
  obtain ⟨k, n, hlanes, hcounters, -⟩ := s.dropOrphans_spec l ys
  exact ⟨⟨_, hlanes⟩, _, hcounters⟩

end OnlyLane

/-! ## Lines (R53 to R56) -/

/-- A line's length counted against the expected length (R55). -/
def State.countLength (s : State) (l : Fin 8) (length : Nat) : State :=
  if length < (s.lanes.get l).record.expected then s.countLane l fun c => { c with shortLine := countUp 1 c.shortLine }
  else if (s.lanes.get l).record.expected < length then s.countLane l fun c => { c with longLine := countUp 1 c.longLine }
  else s

/-- The placement a taken line makes (R55, R56). -/
def State.placementOf (s : State) (l : Fin 8) (q : TrigRecord) (line : List Byte) : Placement :=
  { plane := q.plane, tick := q.tick, position := s.positionAt l q.tick, pixels := (s.lanes.get l).record.fit line,
    place := s.placeFor l q.plane (s.positionAt l q.tick) }

theorem State.place_eq (s : State) (l : Fin 8) (q : TrigRecord) (length : Nat) (line : List Byte) :
    s.place l q length line = (s.countLength l length).dropOrphans l ((s.lanes.get l).placements ++ [s.placementOf l q line]) := rfl

theorem State.countLength_only (s : State) (l : Fin 8) (length : Nat) : OnlyLane l s (s.countLength l length) := by
  unfold State.countLength
  split
  · exact s.countLane_only _ _
  · split
    · exact s.countLane_only _ _
    · exact .of_same rfl rfl

/-- The lane with its queue past the record at a place. -/
def State.queuePast (s : State) (l : Fin 8) (d : Nat) : State :=
  s.setLane l fun n => { n with queue := (s.lanes.get l).queue.drop (d + 1) }

/-- The records ahead of the one at a place in the queue are lost, and all up to it are gone (R53). -/
def State.lostAhead (s : State) (l : Fin 8) (d : Nat) : State :=
  ((s.lanes.get l).queue.take d).foldl (fun s q => s.loseRecord l q) (s.queuePast l d)

theorem State.lostAhead_only (s : State) (l : Fin 8) (d : Nat) : OnlyLane l s (s.lostAhead l d) :=
  (s.setLane_only l _).trans (State.loseRecords_only _ l _)

theorem State.takeLine_only (s : State) (l : Fin 8) (q : TrigRecord) (h : Header) (check : CheckMark) (line : List Byte) :
    OnlyLane l s (s.takeLine l q h check line) := by
  unfold State.takeLine
  split
  · exact (s.countLane_only l _).trans (State.resolveRecord_only _ l _ _)
  · split
    · exact .of_same rfl rfl
    · rw [State.place_eq]; exact (s.countLength_only l _).trans (State.dropOrphans_only _ l _)

section Match

variable {s : State} {l : Fin 8} {h : Header} {check : CheckMark} {line : List Byte}

/-- The place in the queue that a tag names (R53). -/
def tagPlace (tag : Nat) (oldest : TrigRecord) : Nat := (tag + 65536 - oldest.tag % 65536) % 65536

theorem State.matchLine_stray
    (hno : ∀ oldest, (s.lanes.get l).queue.head? = some oldest → (s.lanes.get l).queue[tagPlace h.tag oldest]? = none) :
    s.matchLine l h check line = s.countLane l fun c => { c with stray := countUp 1 c.stray } := by
  unfold State.matchLine
  dsimp only
  cases hq : (s.lanes.get l).queue with
  | nil => rfl
  | cons oldest qs =>
    dsimp only
    have hplace := hno oldest (by rw [hq]; rfl)
    rw [hq, tagPlace] at hplace
    rw [hplace]

theorem State.matchLine_taken {oldest q : TrigRecord} (hold : (s.lanes.get l).queue.head? = some oldest)
    (hq : (s.lanes.get l).queue[tagPlace h.tag oldest]? = some q) :
    s.matchLine l h check line = (s.lostAhead l (tagPlace h.tag oldest)).takeLine l q h check line := by
  unfold State.matchLine State.lostAhead State.queuePast
  dsimp only
  cases hqueue : (s.lanes.get l).queue with
  | nil => rw [hqueue] at hold; cases hold
  | cons x xs =>
    rw [hqueue] at hold hq
    cases Option.some.inj hold
    rw [tagPlace] at hq
    dsimp only
    rw [hq]
    rfl

theorem State.matchLine_only : OnlyLane l s (s.matchLine l h check line) := by
  by_cases hno : ∀ oldest, (s.lanes.get l).queue.head? = some oldest → (s.lanes.get l).queue[tagPlace h.tag oldest]? = none
  · rw [State.matchLine_stray hno]; exact s.countLane_only l _
  · simp only [not_forall] at hno
    obtain ⟨oldest, hold, hsome⟩ := hno
    obtain ⟨q, hq⟩ := Option.ne_none_iff_exists'.mp hsome
    rw [State.matchLine_taken hold hq]
    exact (s.lostAhead_only l _).trans (State.takeLine_only _ l q h check line)

variable {bytes : List Byte}

theorem State.receiveLane_error (hbad : readHeader bytes = none ∨ ∃ h, readHeader bytes = some h ∧ h.kind ≠ 0x48) :
    s.receiveLane l bytes = s.countLane l fun c => { c with packetErrors := countUp 1 c.packetErrors } := by
  unfold State.receiveLane
  rcases hbad with hnone | ⟨h, hh, hkind⟩
  · rw [hnone]
  · rw [hh]; exact if_pos hkind

theorem State.receiveLane_overrun (hh : readHeader bytes = some h) (hkind : h.kind = 0x48) (hfull : 2 ≤ (s.lanes.get l).placements.length) :
    s.receiveLane l bytes = s.countLane l fun c => { c with overrun := countUp 1 c.overrun } := by
  unfold State.receiveLane
  rw [hh]
  exact (if_neg fun hne => hne hkind).trans (if_pos hfull)

theorem State.receiveLane_line (hh : readHeader bytes = some h) (hkind : h.kind = 0x48) (hroom : (s.lanes.get l).placements.length < 2) :
    s.receiveLane l bytes = s.matchLine l h (judgePayload h bytes) ((payloadOf h bytes).take 16384) := by
  unfold State.receiveLane
  rw [hh]
  exact (if_neg fun hne => hne hkind).trans (if_neg (Nat.not_le.mpr hroom))

theorem State.receiveLane_only (s : State) (l : Fin 8) (bytes : List Byte) : OnlyLane l s (s.receiveLane l bytes) := by
  by_cases hbad : readHeader bytes = none ∨ ∃ h, readHeader bytes = some h ∧ h.kind ≠ 0x48
  · rw [State.receiveLane_error hbad]; exact s.countLane_only l _
  · obtain ⟨h, hh⟩ := Option.ne_none_iff_exists'.mp fun hnone => hbad (.inl hnone)
    have hkind : h.kind = 0x48 := by_contra fun hne => hbad (.inr ⟨h, hh, hne⟩)
    by_cases hfull : 2 ≤ (s.lanes.get l).placements.length
    · rw [State.receiveLane_overrun hh hkind hfull]; exact s.countLane_only l _
    · rw [State.receiveLane_line hh hkind (Nat.not_le.mp hfull)]; exact State.matchLine_only

theorem exec_lanePacketReceived (hs : s.pwrOk = true) :
    exec (.lanePacketReceived l bytes) s = .next (((s.receiveLane l bytes).progressed).settleFrom s) := by
  have harm : exec (.lanePacketReceived l bytes) s = execLanePacketReceived l bytes s := rfl
  rw [harm, execLanePacketReceived, State.whenPowered_high _ _ hs]

/-- A packet that is only counted leaves what the tests of lane progress leave (R51, R52, R53). -/
theorem State.countedOnly (s : State) (l : Fin 8) (f : LaneCounters → LaneCounters) :
    let t := ((s.countLane l f).progressed).settleFrom s
    (t.lanes = s.lanes ∧ t.frt = s.progressed.frt ∧ t.slm = s.progressed.slm ∧ s.progressed.sameDelivery t
        ∧ ∀ i, (t.slot i).state ≠ .free → (t.slot i).marks = (s.slot i).marks)
      ∧ t.ntu.counters.lanes.get l = f (s.ntu.counters.lanes.get l) := by
  dsimp only
  have hprogressed : (s.countLane l f).progressed = s.progressed.withNtu (s.countLane l f).ntu :=
    s.progressed_withNtu (s.countLane l f).ntu
  have hslm : (((s.countLane l f).progressed).settleFrom s).slm = s.progressed.slm := by
    rw [hprogressed, (State.settleFrom_frame _ _).2.2.2.2.2.1]; rfl
  refine ⟨⟨by simp, ?_, hslm, ?_, fun i hlive => ?_⟩, by simp [State.countLane]⟩
  · rw [hprogressed, (State.settleFrom_frame _ _).2.2.2.2.1]; rfl
  · exact State.sameDelivery_settleFrom (by rw [hprogressed]; exact State.sameDelivery_of_dle rfl) s
  · have hslot : (((s.countLane l f).progressed).settleFrom s).slot i = s.progressed.slot i := by unfold State.slot; rw [hslm]
    rw [hslot] at hlive ⊢
    rcases (s.progressed_later i).live with hx | ⟨hmarks, -⟩
    · exact absurd (by rw [hx]; rfl) hlive
    · exact hmarks

end Match

/-- Settles O42: each packet refused is one count, and what follows is the tests of lane progress. -/
theorem refusedLinesAreOnlyCounted : Obligations.RefusedLinesAreOnlyCounted := by
  intro l bytes s hs
  refine ⟨_, exec_lanePacketReceived hs, ?_⟩
  dsimp only
  refine ⟨by simp, by simp, by simp, by simp, by simp, by simp, fun m hm => ?_, fun hbad => ?_, fun h hh hkind hfull => ?_,
    fun h hh hkind hroom hstray => ?_⟩
  · have honly := (s.receiveLane_only l bytes).others hm
    simpa using honly
  · rw [State.receiveLane_error hbad]; exact s.countedOnly l _
  · rw [State.receiveLane_overrun hh hkind hfull]; exact s.countedOnly l _
  · rw [State.receiveLane_line hh hkind hroom, State.matchLine_stray]
    · exact s.countedOnly l _
    · intro oldest hold
      rcases hstray with hnil | ⟨q, qs, hq, hlong⟩
      · rw [hnil] at hold; cases hold
      · rw [hq] at hold
        cases Option.some.inj hold
        exact List.getElem?_eq_none hlong

end Sys2Proof.Machine

/-! # A LINE and its record (R53 to R58, R100, R101, R102) -/

namespace Sys2Proof.Machine

section Take

variable {s : State} {l : Fin 8} {q : TrigRecord} {h : Header} {check : CheckMark} {line : List Byte}

theorem State.takeLine_bad (hbad : h.stream ≠ q.entry.val ∨ check = .fail) :
    s.takeLine l q h check line = (s.countLane l fun c => { c with check := countUp 1 c.check }).resolveRecord l .check q :=
  if_pos hbad

theorem State.takeLine_rejoin (hgood : h.stream = q.entry.val) (hcheck : check ≠ .fail) (hr : q.rejoin = true) :
    s.takeLine l q h check line = s :=
  (if_neg fun hbad => hbad.elim (fun hne => hne hgood) hcheck).trans (if_pos hr)

theorem State.takeLine_places (hgood : h.stream = q.entry.val) (hcheck : check ≠ .fail) (hr : q.rejoin = false) :
    s.takeLine l q h check line
      = (s.countLength l h.length).dropOrphans l ((s.lanes.get l).placements ++ [s.placementOf l q line]) :=
  (if_neg fun hbad => hbad.elim (fun hne => hne hgood) hcheck).trans (if_neg (by rw [hr]; exact nofun))

theorem State.countLength_frame (s : State) (l : Fin 8) (n : Nat) :
    (s.countLength l n).lanes = s.lanes ∧ (s.countLength l n).slm = s.slm
      ∧ (s.countLength l n).ntu.counters.lanes = s.ntu.counters.lanes.set l
        { s.ntu.counters.lanes.get l with
          shortLine := if n < (s.lanes.get l).record.expected then countUp 1 (s.ntu.counters.lanes.get l).shortLine
            else (s.ntu.counters.lanes.get l).shortLine,
          longLine := if (s.lanes.get l).record.expected < n then countUp 1 (s.ntu.counters.lanes.get l).longLine
            else (s.ntu.counters.lanes.get l).longLine } := by
  unfold State.countLength
  split
  · next hlt => exact ⟨rfl, rfl, by rw [if_neg (by omega)]; rfl⟩
  · split
    · exact ⟨rfl, rfl, rfl⟩
    · exact ⟨rfl, rfl, (Eight.set_get_self _ _).symm⟩

/-- Judging a line changes its lane's placements alone, loses no record and asks for fills only. -/
theorem State.takeLine_common (s : State) (l : Fin 8) (q : TrigRecord) (h : Header) (check : CheckMark) (line : List Byte) :
    ∃ ys gs, (s.takeLine l q h check line).lanes = s.lanes.set l { s.lanes.get l with placements := ys }
      ∧ ((s.takeLine l q h check line).ntu.counters.lanes.get l).lost = (s.ntu.counters.lanes.get l).lost
      ∧ FilledBy gs s (s.takeLine l q h check line) := by
  by_cases hbad : h.stream ≠ q.entry.val ∨ check = .fail
  · rw [State.takeLine_bad hbad]
    have hcounted : FilledBy [] s (s.countLane l fun c => { c with check := countUp 1 c.check }) := .none (by simp)
    refine ⟨(s.lanes.get l).placements, [] ++ q.asks l (s.lanes.get l).record.offset .check, ?_, by simp [State.countLane],
      hcounted.trans (State.resolveRecord_filledBy (by simp) .check q)⟩
    exact Eq.trans (by simp) (Eight.set_get_self s.lanes l).symm
  · simp only [not_or, not_not] at hbad
    obtain ⟨hgood, hcheck⟩ := hbad
    cases hr : q.rejoin with
    | true =>
      rw [State.takeLine_rejoin hgood hcheck hr]
      exact ⟨_, [], (Eight.set_get_self _ _).symm, rfl, .none rfl⟩
    | false =>
      rw [State.takeLine_places hgood hcheck hr]
      obtain ⟨hlanes, hslm, hcount⟩ := s.countLength_frame l h.length
      obtain ⟨k, n, hlanes', hcounters, -⟩ :=
        (s.countLength l h.length).dropOrphans_spec l ((s.lanes.get l).placements ++ [s.placementOf l q line])
      refine ⟨_, [], by rw [hlanes', hlanes], ?_, .none ?_⟩
      · rw [hcounters, Eight.get_set_self, hcount, Eight.get_set_self]
      · rw [(State.dropOrphans_frame _ _ _).2.2.2.2.2.2.1, hslm]

end Take

/-! ## Records ahead of the one taken -/

section Ahead

variable (s : State) (l : Fin 8) (d : Nat)

/-- The fills asked for by the records ahead of the one a tag names (R53, R58). -/
def State.aheadFills : List Fill :=
  ((s.lanes.get l).queue.take d).flatMap fun q => q.asks l (s.lanes.get l).record.offset .lost

theorem State.mem_aheadFills {f : Fill} (h : f ∈ s.aheadFills l d) :
    ∃ x ∈ (s.lanes.get l).queue.take d, x.rejoin = false
      ∧ f = { lane := l, plane := x.plane, position := x.tick - ((s.lanes.get l).record.offset : Int), cause := .lost } := by
  obtain ⟨x, hx, hf⟩ := List.mem_flatMap.mp h
  obtain ⟨hr, heq⟩ := TrigRecord.mem_asks hf
  exact ⟨x, hx, hr, heq⟩

theorem State.lostAhead_filledBy : FilledBy (s.aheadFills l d) s (s.lostAhead l d) := by
  have hpast : FilledBy [] s (s.queuePast l d) := .none rfl
  exact hpast.trans (State.loseRecords_filledBy (by simp [State.queuePast]) _)

theorem State.lostAhead_lanes : (s.lostAhead l d).lanes
    = s.lanes.set l { s.lanes.get l with queue := (s.lanes.get l).queue.drop (d + 1) } := by
  unfold State.lostAhead
  simp [State.queuePast, State.setLane]

theorem State.lostAhead_lost : ∃ n, (s.lostAhead l d).ntu.counters.lanes
      = s.ntu.counters.lanes.set l { s.ntu.counters.lanes.get l with lost := n }
    ∧ ((s.ntu.counters.lanes.get l).lost + ((s.lanes.get l).queue.take d).length ≤ 4294967295 →
        n = (s.ntu.counters.lanes.get l).lost + ((s.lanes.get l).queue.take d).length) :=
  State.loseRecords_lost l ((s.lanes.get l).queue.take d) (s.queuePast l d)

end Ahead

/-- The expected length, and the rest of a line as the buffer holds it (R52, R55). -/
theorem LaneRecord.fit_buffered (r : LaneRecord) (line : List Byte) :
    r.fit (line.take 16384)
      = line.take (min 16384 r.expected) ++ List.replicate (r.expected - (line.take (min 16384 r.expected)).length) r.fill := by
  unfold LaneRecord.fit
  rw [List.take_take, Nat.min_comm r.expected]
  congr 2
  simp only [List.length_take]
  omega

/-- Where a line goes after fills of its lane: the row it would have had, where no fill took it. -/
theorem FilledBy.placeFor {fs : List Fill} {s t : State} (h : FilledBy fs s t) (l : Fin 8) (k : Fin 4) (p : Int) :
    (s.keeper p = Option.none → t.placeFor l k p = Option.none)
      ∧ ∀ i, s.keeper p = some i →
        ((s.slot i).markOf l k (p - (s.slot i).start).toNat ≠ .unresolved → t.placeFor l k p = Option.none)
          ∧ ((s.slot i).markOf l k (p - (s.slot i).start).toNat = .unresolved →
            (∀ f ∈ fs, ¬ (f.lane = l ∧ f.plane = k ∧ f.position = p)) →
            t.placeFor l k p = some { slot := i, row := (p - (s.slot i).start).toNat, alloc := (s.slot i).alloc }) := by
  have hkeeper : t.keeper p = s.keeper p := by
    rw [← State.fillAll_keeper fs s p]; unfold State.keeper; rw [h]
  unfold State.placeFor
  rw [hkeeper]
  refine ⟨fun hnone => by rw [hnone], fun i hi => ?_⟩
  have hstart : (t.slot i).start = (s.slot i).start := by rw [h.slot, State.fillAll_start]
  have halloc : (t.slot i).alloc = (s.slot i).alloc := by rw [h.slot, State.fillAll_alloc]
  simp only [hi, hstart, halloc]
  refine ⟨fun hset => if_neg ?_, fun hfree hno => if_pos ?_⟩
  · rw [h.slot, State.fillAll_markOf_set hset]; exact hset
  · rw [h.slot, State.fillAll_markOf_other (Slot.keeps_spec ((State.keeper_iff _ _ _).mp hi).1).2 hno]; exact hfree

/-- Settles O43: the records ahead are lost, and then the line is judged. -/
theorem linesTakeTheirRecords : Obligations.LinesTakeTheirRecords := by
  intro l bytes s h q oldest d hs hh hkind hroom hold hd hq
  have hd' : d = tagPlace h.tag oldest := hd
  have hlen : ((s.lanes.get l).queue.take d).length = d := by
    rw [List.length_take]
    exact Nat.min_eq_left (Nat.le_of_lt (List.getElem?_eq_some_iff.mp hq).1)
  have hstep : s.receiveLane l bytes
      = (s.lostAhead l d).takeLine l q h (judgePayload h bytes) ((payloadOf h bytes).take 16384) := by
    rw [State.receiveLane_line hh hkind hroom, State.matchLine_taken hold (by rw [← hd']; exact hq), hd']
  have hlanes := s.lostAhead_lanes l d
  have hfilled := s.lostAhead_filledBy l d
  obtain ⟨n, hcounters, hlost⟩ := s.lostAhead_lost l d
  rw [hlen] at hlost
  have hrecord : ((s.lostAhead l d).lanes.get l).record = (s.lanes.get l).record
      ∧ ((s.lostAhead l d).lanes.get l).placements = (s.lanes.get l).placements := by simp [hlanes]
  obtain ⟨hrecord, hplacements⟩ := hrecord
  have honly := (State.lostAhead_only s l d).trans
    (State.takeLine_only (s.lostAhead l d) l q h (judgePayload h bytes) ((payloadOf h bytes).take 16384))
  obtain ⟨ys, gs, hlane, hlost', hgs⟩ :=
    (s.lostAhead l d).takeLine_common l q h (judgePayload h bytes) ((payloadOf h bytes).take 16384)
  refine ⟨_, exec_lanePacketReceived hs, ?_⟩
  have hlanesEnd : ((s.receiveLane l bytes).progressed.settleFrom s).lanes = (s.receiveLane l bytes).lanes := by simp
  have hntuEnd : ((s.receiveLane l bytes).progressed.settleFrom s).ntu = (s.receiveLane l bytes).ntu := by simp
  have hlater := State.tested_later (s.receiveLane l bytes) s
  rw [hlanesEnd, hntuEnd]
  rw [hstep] at hlater ⊢
  refine ⟨?_, ?_, ?_, fun m hm => (honly.others hm).1, fun hle => ?_, fun x hx hr => ?_, fun hbad => ?_, fun hgood hcheck => ?_, ?_⟩
  · rw [hlane, hlanes]; simp
  · rw [hlane, hlanes]; simp
  · rw [hlane, hlanes]; simp
  · rw [hlost', hcounters, Eight.get_set_self]; exact hlost hle
  · refine (hfilled.trans hgs).fills_first hlater ?_ fun g hg _ _ _ => ?_
    · exact List.mem_flatMap.mpr ⟨x, hx, TrigRecord.asks_plain hr _ _ _⟩
    · obtain ⟨y, -, -, rfl⟩ := s.mem_aheadFills l d hg
      rfl
  · rw [State.takeLine_bad hbad] at hlater ⊢
    refine ⟨by simp [hplacements], by simp [State.countLane, hcounters, countUp_one], fun hr hno => ?_⟩
    have hcounted : FilledBy [] (s.lostAhead l d) ((s.lostAhead l d).countLane l fun c => { c with check := countUp 1 c.check }) :=
      .none (by simp)
    have hmark := State.resolveRecord_filledBy (s := (s.lostAhead l d).countLane l fun c => { c with check := countUp 1 c.check })
      (l := l) (offset := (s.lanes.get l).record.offset) (by simp [hrecord]) .check q
    refine (hfilled.trans (hcounted.trans hmark)).fills hlater ?_ fun g hg _ hplane hposition => ?_
    · exact List.mem_append_right _ (TrigRecord.asks_plain hr _ _ _)
    · rcases List.mem_append.mp hg with hg | hg
      · obtain ⟨x, hx, hxr, rfl⟩ := s.mem_aheadFills l d hg
        exact absurd (by dsimp only at hposition; omega) (hno x hx hxr hplane)
      · rw [(TrigRecord.mem_asks hg).2]
  · cases hr : q.rejoin with
    | true =>
      rw [State.takeLine_rejoin hgood hcheck hr]
      exact ⟨by simp [hcounters], fun _ => hplacements, nofun⟩
    | false =>
      rw [State.takeLine_places hgood hcheck hr]
      obtain ⟨hlanes₁, -, hcount₁⟩ := (s.lostAhead l d).countLength_frame l h.length
      obtain ⟨k, m, hlanes₂, hcounters₂, horphans, hhead, -⟩ := ((s.lostAhead l d).countLength l h.length).dropOrphans_spec l
        (((s.lostAhead l d).lanes.get l).placements ++ [(s.lostAhead l d).placementOf l q ((payloadOf h bytes).take 16384)])
      have hposition : (s.lostAhead l d).positionAt l q.tick = q.tick - ((s.lanes.get l).record.offset : Int) := by
        rw [State.positionAt, hrecord]
      have hplace := hfilled.placeFor l q.plane (q.tick - ((s.lanes.get l).record.offset : Int))
      rw [hlanes₂, hcounters₂, hcount₁, hrecord, hcounters, Eight.get_set_self, Eight.get_set_self, Eight.get_set_self, Eight.get_set_self]
      rw [hplacements] at horphans hhead ⊢
      refine ⟨rfl, nofun, fun _ => ⟨(s.lostAhead l d).placementOf l q ((payloadOf h bytes).take 16384), k, rfl, horphans, hhead, rfl,
        rfl, hposition, ?_, fun hnone => ?_, fun i hi => ⟨fun hset => ?_, fun hfree hno => ?_⟩, rfl, rfl⟩⟩
      · rw [State.placementOf, hrecord]; exact LaneRecord.fit_buffered _ _
      all_goals rw [State.placementOf] at *; dsimp only at *; rw [hposition] at *
      · exact hplace.1 hnone
      · exact (hplace.2 i hi).1 hset
      · refine (hplace.2 i hi).2 hfree fun f hf => ?_
        obtain ⟨x, hx, hxr, rfl⟩ := s.mem_aheadFills l d hf
        rintro ⟨-, hplane, htick⟩
        exact hno x hx hxr hplane (by dsimp only at htick; omega)
  · rw [← hstep]; simp

end Sys2Proof.Machine

/-! # Entries offered to the lanes, and overspeed ticks (R31 to R37, R50) -/

namespace Sys2Proof.Machine

theorem indices_nodup : indices.Nodup := by decide

theorem mem_indices (l : Fin 8) : l ∈ indices := by revert l; decide

/-! ## One lane (R33, R34, R35, R50) -/

/-- Whether an entry is appended to a lane or withheld from it, if the lane has room. -/
def Lane.listens (n : Lane) : Bool := n.state = .active || n.state = .rejoin

/-- A lane after an entry is offered to it: a record more where it listens and has room (R34). -/
def Lane.offered (n : Lane) (now : Nat) (tick : Int) (e : Fin 8) (x : PhaseEntry) : Lane :=
  if n.listens = true ∧ n.queue.length < 64 then
    { n with
      queue := n.queue ++
        [{ tag := n.nextTag, tick := tick, entry := e, plane := x.plane, deadline := now + n.record.timeoutUs * 100,
           rejoin := n.state = .rejoin }],
      nextTag := (n.nextTag + 1) % 65536, lastTrigger := some (triggerPacket e n.nextTag x.exposure) }
  else n

/-- The withheld counter of a lane after an entry is offered to it (R35). -/
def Lane.offeredCount (n : Lane) (c : LaneCounters) : LaneCounters :=
  if n.listens = true ∧ 64 ≤ n.queue.length then { c with withheld := countUp 1 c.withheld } else c

/-- The cause for which an offered entry's row is filled on a lane, if any (R35, R37, R50). -/
def Lane.offerCause (n : Lane) : Option FillCause :=
  if n.listens = true then
    if n.queue.length < 64 then if n.state = .rejoin then some .rejoin else none else some .behind
  else if n.state = .down then some .laneDown else none

/-- The fill of a lane's row for a cause, if there is one. -/
def Lane.asks (n : Lane) (l : Fin 8) (k : Fin 4) (tick : Int) (c : Option FillCause) : List Fill :=
  c.toList.map fun c => { lane := l, plane := k, position := tick - (n.record.offset : Int), cause := c }

theorem Lane.mem_asks {n : Lane} {l : Fin 8} {k : Fin 4} {tick : Int} {c : Option FillCause} {f : Fill} (h : f ∈ n.asks l k tick c) :
    f.lane = l ∧ c = some f.cause := by
  cases c with
  | none => cases h
  | some c => rw [List.mem_singleton.mp h]; exact ⟨rfl, rfl⟩

section Offer

variable (s : State) (tick : Int) (e : Fin 8) (x : PhaseEntry) (l : Fin 8)

theorem State.append_lanes : (s.append l tick e x).lanes = s.lanes.set l
    { s.lanes.get l with
      queue := (s.lanes.get l).queue ++
        [{ tag := (s.lanes.get l).nextTag, tick := tick, entry := e, plane := x.plane,
           deadline := s.now + (s.lanes.get l).record.timeoutUs * 100, rejoin := (s.lanes.get l).state = .rejoin }],
      nextTag := ((s.lanes.get l).nextTag + 1) % 65536,
      lastTrigger := some (triggerPacket e (s.lanes.get l).nextTag x.exposure) } := rfl

theorem State.withhold_count : (s.withhold l tick x).ntu.counters.lanes = s.ntu.counters.lanes.set l
    { s.ntu.counters.lanes.get l with withheld := countUp 1 (s.ntu.counters.lanes.get l).withheld } := by
  simp [State.withhold, State.countLane]

/-- What an entry offered to one lane does there. -/
theorem State.offerEntry_spec :
    (s.offerEntry tick e x l).lanes = s.lanes.set l ((s.lanes.get l).offered s.now tick e x)
      ∧ (s.offerEntry tick e x l).ntu.counters.lanes = s.ntu.counters.lanes.set l ((s.lanes.get l).offeredCount (s.ntu.counters.lanes.get l))
      ∧ FilledBy ((s.lanes.get l).asks l x.plane tick (s.lanes.get l).offerCause) s (s.offerEntry tick e x l)
      ∧ ((s.lanes.get l).listens = true → 64 ≤ (s.lanes.get l).queue.length →
          maskHas (s.offerEntry tick e x l).ntu.pending .withheld = true) := by
  have hwithhold (hl : (s.lanes.get l).listens = true) (hfull : ¬ (s.lanes.get l).queue.length < 64) :
      (s.withhold l tick x).lanes = s.lanes.set l ((s.lanes.get l).offered s.now tick e x)
      ∧ (s.withhold l tick x).ntu.counters.lanes = s.ntu.counters.lanes.set l ((s.lanes.get l).offeredCount (s.ntu.counters.lanes.get l))
      ∧ FilledBy ((s.lanes.get l).asks l x.plane tick (s.lanes.get l).offerCause) s (s.withhold l tick x)
      ∧ ((s.lanes.get l).listens = true → 64 ≤ (s.lanes.get l).queue.length →
          maskHas (s.withhold l tick x).ntu.pending .withheld = true) := by
    refine ⟨?_, ?_, ?_, fun _ _ => by simp [State.withhold, State.maskHas_raise]⟩
    · rw [Lane.offered, if_neg fun h => hfull h.2, Eight.set_get_self]; simp
    · rw [Lane.offeredCount, if_pos ⟨hl, Nat.not_lt.mp hfull⟩, State.withhold_count]
    · rw [Lane.offerCause, if_pos hl, if_neg hfull]
      exact (FilledBy.mark s l x.plane (s.positionAt l tick) .behind).after (by simp [State.withhold])
  have hplain (hl : ¬ (s.lanes.get l).listens = true) : (s.lanes.get l).offered s.now tick e x = s.lanes.get l
      ∧ (s.lanes.get l).offeredCount (s.ntu.counters.lanes.get l) = s.ntu.counters.lanes.get l :=
    ⟨if_neg fun h => hl h.1, if_neg fun h => hl h.1⟩
  cases hstate : (s.lanes.get l).state with
  | active =>
    have hl : (s.lanes.get l).listens = true := by simp [Lane.listens, hstate]
    by_cases hroom : (s.lanes.get l).queue.length < 64
    · have hstep : s.offerEntry tick e x l = s.append l tick e x := by
        simp only [State.offerEntry, hstate]; exact if_pos hroom
      rw [hstep, Lane.offered, if_pos ⟨hl, hroom⟩, Lane.offeredCount, if_neg fun h => absurd h.2 (Nat.not_le.mpr hroom), Lane.offerCause,
        if_pos hl, if_pos hroom, if_neg (by rw [hstate]; exact LaneState.noConfusion)]
      exact ⟨s.append_lanes tick e x l, by simp, .none (by simp), fun _ hfull => absurd hroom (Nat.not_lt.mpr hfull)⟩
    · have hstep : s.offerEntry tick e x l = s.withhold l tick x := by
        simp only [State.offerEntry, hstate]; exact if_neg hroom
      rw [hstep]; exact hwithhold hl hroom
  | rejoin =>
    have hl : (s.lanes.get l).listens = true := by simp [Lane.listens, hstate]
    by_cases hroom : (s.lanes.get l).queue.length < 64
    · have hstep : s.offerEntry tick e x l = (s.append l tick e x).fillMark l x.plane (s.positionAt l tick) .rejoin := by
        simp only [State.offerEntry, hstate]; exact if_pos hroom
      rw [hstep, Lane.offered, if_pos ⟨hl, hroom⟩, Lane.offeredCount, if_neg fun h => absurd h.2 (Nat.not_le.mpr hroom), Lane.offerCause,
        if_pos hl, if_pos hroom, if_pos hstate]
      refine ⟨by rw [← s.append_lanes]; simp, by simp, ?_, fun _ hfull => absurd hroom (Nat.not_lt.mpr hfull)⟩
      have happend : FilledBy [] s (s.append l tick e x) := .none (by simp)
      exact happend.trans (.mark _ l x.plane _ .rejoin)
    · have hstep : s.offerEntry tick e x l = s.withhold l tick x := by
        simp only [State.offerEntry, hstate]; exact if_neg hroom
      rw [hstep]; exact hwithhold hl hroom
  | down =>
    have hl : ¬ (s.lanes.get l).listens = true := by simp [Lane.listens, hstate]
    have hstep : s.offerEntry tick e x l = s.fillMark l x.plane (s.positionAt l tick) .laneDown := by
      simp only [State.offerEntry, hstate]
    rw [hstep, (hplain hl).1, (hplain hl).2, Lane.offerCause, if_neg hl, if_pos hstate]
    exact ⟨by simp, by simp, .mark s l x.plane _ .laneDown, fun h => absurd h hl⟩
  | ready | disabled =>
    have hl : ¬ (s.lanes.get l).listens = true := by simp [Lane.listens, hstate]
    have hstep : s.offerEntry tick e x l = s := by simp only [State.offerEntry, hstate]
    rw [hstep, (hplain hl).1, (hplain hl).2, Lane.offerCause, if_neg hl, if_neg (by rw [hstate]; exact LaneState.noConfusion)]
    exact ⟨by simp, by simp, .none rfl, fun h => absurd h hl⟩

end Offer

/-! ## All lanes (R33) -/

section Offers

variable {tick : Int} {e : Fin 8} {x : PhaseEntry}

/-- What an entry offered to a list of lanes does to each lane of it, and to each other lane. -/
theorem offers_spec (ls : List (Fin 8)) (hls : ls.Nodup) (s : State) :
    let t := ls.foldl (fun s l => s.offerEntry tick e x l) s
    (∀ l, t.lanes.get l = if l ∈ ls then (s.lanes.get l).offered s.now tick e x else s.lanes.get l)
      ∧ (∀ l ∈ ls, (t.ntu.counters.lanes.get l) = (s.lanes.get l).offeredCount (s.ntu.counters.lanes.get l))
      ∧ (∀ l, l ∉ ls → (t.ntu.counters.lanes.get l) = s.ntu.counters.lanes.get l)
      ∧ FilledBy (ls.flatMap fun l => (s.lanes.get l).asks l x.plane tick (s.lanes.get l).offerCause) s t
      ∧ (∀ l ∈ ls, (s.lanes.get l).listens = true → 64 ≤ (s.lanes.get l).queue.length → maskHas t.ntu.pending .withheld = true) := by
  dsimp only
  induction ls generalizing s with
  | nil => exact ⟨fun l => by simp, nofun, fun _ _ => rfl, .none rfl, nofun⟩
  | cons m ls ih =>
    obtain ⟨hm, hls⟩ := List.nodup_cons.mp hls
    obtain ⟨hlanes, hcounts, hfilled, hwithheld⟩ := s.offerEntry_spec tick e x m
    have hnow : (s.offerEntry tick e x m).now = s.now := by simp
    obtain ⟨ihlanes, ihcounts, ihothers, ihfilled, ihwithheld⟩ := ih hls (s.offerEntry tick e x m)
    rw [hnow] at ihlanes
    have hne {l : Fin 8} (hl : l ∈ ls) : l ≠ m := fun h => hm (h ▸ hl)
    have hlane {l : Fin 8} (hl : l ≠ m) : (s.offerEntry tick e x m).lanes.get l = s.lanes.get l := by
      rw [hlanes]; exact Eight.get_set_ne _ _ hl
    have hcount {l : Fin 8} (hl : l ≠ m) :
        (s.offerEntry tick e x m).ntu.counters.lanes.get l = s.ntu.counters.lanes.get l := by
      rw [hcounts]; exact Eight.get_set_ne _ _ hl
    rw [List.foldl_cons]
    refine ⟨fun l => ?_, fun l hl => ?_, fun l hl => ?_, ?_, fun l hl hlistens hfull => ?_⟩
    · rw [ihlanes]
      by_cases hlm : l = m
      · subst hlm
        rw [if_neg hm, if_pos List.mem_cons_self, hlanes, Eight.get_set_self]
      · rw [hlane hlm]
        simp only [List.mem_cons, hlm, false_or]
    · rcases List.mem_cons.mp hl with rfl | hl
      · rw [ihothers _ hm, hcounts, Eight.get_set_self]
      · rw [ihcounts l hl, hlane (hne hl), hcount (hne hl)]
    · obtain ⟨hlm, hl⟩ := not_or.mp fun h => hl (List.mem_cons.mpr h)
      rw [ihothers l hl, hcount hlm]
    · have hasks : (ls.flatMap fun l => ((s.offerEntry tick e x m).lanes.get l).asks l x.plane tick
          ((s.offerEntry tick e x m).lanes.get l).offerCause)
          = ls.flatMap fun l => (s.lanes.get l).asks l x.plane tick (s.lanes.get l).offerCause := by
        rw [List.flatMap_def, List.flatMap_def, List.map_congr_left fun l hl => by rw [hlane (hne hl)]]
      rw [hasks] at ihfilled
      exact hfilled.trans ihfilled
    · rcases List.mem_cons.mp hl with rfl | hl
      · exact (Raises.foldl _ (fun u l => u.offerEntry_raises tick e x l) ls _).stays _ (hwithheld hlistens hfull)
      · exact ihwithheld l hl (by rw [hlane (hne hl)]; exact hlistens) (by rw [hlane (hne hl)]; exact hfull)

theorem mem_offerFills {s : State} {k : Fin 4} {f : Fill}
    (h : f ∈ indices.flatMap fun l => (s.lanes.get l).asks l k tick (s.lanes.get l).offerCause) :
    (s.lanes.get f.lane).offerCause = some f.cause := by
  obtain ⟨l, -, hf⟩ := List.mem_flatMap.mp h
  obtain ⟨hl, hc⟩ := Lane.mem_asks hf
  rw [hl]; exact hc

end Offers

/-- An entry issued, and what may follow it in the step, is offered to the lanes as R33 to R35 and R50 say. -/
theorem State.issueNext_offers {s u : State} {g : Group} {e : Fin 8} (hg : s.tru.group = some g) (he : g.entries[g.issued]? = some e)
    (hu : Later s.issueNext u) (hlanes : u.lanes = s.issueNext.lanes) (hntu : u.ntu = s.issueNext.ntu) (hnow : u.now = s.now) :
    s.offersEntry u g.tick e := by
  have hstep := State.issueNext_eq hg he
  obtain ⟨hlane, hcount, -, hfilled, hwithheld⟩ := offers_spec (tick := g.tick) (e := e) (x := s.tru.table.get e) indices indices_nodup
    (s.pulsed (s.tru.table.get e))
  change ∀ l, ((s.pulsed (s.tru.table.get e)).offered g.tick e (s.tru.table.get e)).lanes.get l = _ at hlane
  change ∀ l ∈ indices, ((s.pulsed (s.tru.table.get e)).offered g.tick e (s.tru.table.get e)).ntu.counters.lanes.get l = _ at hcount
  have hissued : FilledBy (indices.flatMap fun l => (s.lanes.get l).asks l (s.tru.table.get e).plane g.tick (s.lanes.get l).offerCause) s
      s.issueNext := by
    have hpulsed : FilledBy [] s (s.pulsed (s.tru.table.get e)) := .none rfl
    rw [hstep]
    exact (hpulsed.trans hfilled).after rfl
  have hlane' (l : Fin 8) : u.lanes.get l = (s.lanes.get l).offered s.now g.tick e (s.tru.table.get e) := by
    rw [hlanes, hstep]
    exact (hlane l).trans (if_pos (mem_indices l))
  have hcount' (l : Fin 8) : u.ntu.counters.lanes.get l = (s.lanes.get l).offeredCount (s.ntu.counters.lanes.get l) := by
    rw [hntu, hstep]
    exact hcount l (mem_indices l)
  have hkeeps {l : Fin 8} (hno : (s.lanes.get l).offerCause = none) : s.keepsMarks u l := by
    refine hissued.keepsMarks hu fun f hf hl => ?_
    have hcause := mem_offerFills hf
    rw [hl, hno] at hcause
    cases hcause
  have hfills {l : Fin 8} {c : FillCause} (hc : (s.lanes.get l).offerCause = some c) :
      s.fills u l (s.tru.table.get e).plane (g.tick - ((s.lanes.get l).record.offset : Int)) c := by
    refine hissued.fills hu ?_ fun f hf hl _ _ => ?_
    · exact List.mem_flatMap.mpr ⟨l, mem_indices l, by rw [hc]; exact List.mem_singleton.mpr rfl⟩
    · have hcause := mem_offerFills hf
      rw [hl, hc] at hcause
      exact (Option.some.inj hcause).symm
  intro l
  dsimp only
  have hlistens (h : (s.lanes.get l).state = .active ∨ (s.lanes.get l).state = .rejoin) : (s.lanes.get l).listens = true := by
    rcases h with h | h <;> simp [Lane.listens, h]
  refine ⟨fun h hroom => ?_, fun h hfull => ?_, fun h => ?_, fun h => ?_⟩
  · have hcause : (s.lanes.get l).offerCause = if (s.lanes.get l).state = .rejoin then some .rejoin else none := by
      rw [Lane.offerCause, if_pos (hlistens h), if_pos hroom]
    refine ⟨?_, fun ha => hkeeps ?_, fun hr => hfills ?_⟩
    · rw [hlane', Lane.offered, if_pos ⟨hlistens h, hroom⟩, hnow]; rfl
    · rw [hcause, if_neg (by rw [ha]; exact LaneState.noConfusion)]
    · rw [hcause, if_pos hr]
  · refine ⟨?_, ?_, ?_, hfills ?_⟩
    · rw [hlane', Lane.offered, if_neg fun hx => absurd hx.2 (Nat.not_lt.mpr hfull)]
    · rw [hntu, hstep]
      exact hwithheld l (mem_indices l) (hlistens h) hfull
    · rw [hcount', Lane.offeredCount, if_pos ⟨hlistens h, hfull⟩]; rfl
    · rw [Lane.offerCause, if_pos (hlistens h), if_neg (Nat.not_lt.mpr hfull)]
  · have hl : ¬ (s.lanes.get l).listens = true := by simp [Lane.listens, h]
    refine ⟨?_, hfills ?_⟩
    · rw [hlane', Lane.offered, if_neg fun hx => hl hx.1]
    · rw [Lane.offerCause, if_neg hl, if_pos h]
  · have hl : ¬ (s.lanes.get l).listens = true := by rcases h with h | h <;> simp [Lane.listens, h]
    refine ⟨?_, hkeeps ?_⟩
    · rw [hlane', Lane.offered, if_neg fun hx => hl hx.1]
    · rw [Lane.offerCause, if_neg hl, if_neg]
      rcases h with h | h <;> rw [h] <;> exact LaneState.noConfusion

theorem exec_entryIssue {s : State} {g : Group} {e : Fin 8} (hs : s.pwrOk = true) (hg : s.tru.group = some g)
    (he : g.entries[g.issued]? = some e) :
    exec .entryIssue s = .next ((((s.advanceTo (s.groupTime g g.issued)).issueNext).progressed).settleFrom s) := by
  have harm : exec .entryIssue s = execEntryIssue s := rfl
  rw [harm, execEntryIssue, State.whenPowered_high _ _ hs, hg]
  exact congrArg _ (if_pos (List.getElem?_eq_some_iff.mp he).1)

/-- Settles O36: the entry is offered lane by lane, and the tests that follow leave its marks. -/
theorem entriesAreIssuedToTheLanes : Obligations.EntriesAreIssuedToTheLanes := by
  intro s g e hs hg he
  refine ⟨_, exec_entryIssue hs hg he, ?_⟩
  generalize hv : s.advanceTo (s.groupTime g g.issued) = v
  have hvg : v.tru.group = some g := by rw [← hv]; exact hg
  have hstep := State.issueNext_eq hvg he
  have htru : v.issueNext.tru = { v.tru.pulse v.now (v.tru.table.get e) with group := some { g with issued := g.issued + 1 } } := by
    rw [hstep, State.oneIssued, State.offered]
    simp [State.pulsed]
  have hend : ((v.issueNext.progressed).settleFrom s).now = v.now ∧ ((v.issueNext.progressed).settleFrom s).tru = v.issueNext.tru := by
    simp
  refine ⟨?_, ?_, ?_, ?_⟩
  · rw [hend.1, ← hv]; rfl
  · rw [hend.1, hend.2, htru, ← hv]; rfl
  · have hoffers := State.issueNext_offers (s := v) (u := (v.issueNext.progressed).settleFrom s) hvg he (State.tested_later _ s)
      (by simp) (by simp) (by simp)
    rw [← hv] at hoffers ⊢
    exact hoffers
  · subst hv
    simp

end Sys2Proof.Machine

/-! # Boundaries and ticks (R30, R31, R36, R67 to R75) -/

namespace Sys2Proof.Machine

/-! ## What a boundary leaves of framing but the open list -/

/-- A Frame Tracker with its open list put aside. -/
def Frt.rest (f : Frt) : Frt := { f with openList := [] }

section Rest

variable (s : State)

theorem closePassing_rest (high : Int) (fs : List OpenFrame) (s : State) : (closePassing high fs s).frt.rest = s.frt.rest := by
  obtain ⟨k, h⟩ := closePassing_openList high fs s
  rw [h]; rfl

theorem State.closeTest_rest (high : Int) : (s.closeTest high).frt.rest = s.frt.rest := closePassing_rest high _ s

theorem State.progressed_rest : s.progressed.frt.rest = s.frt.rest := s.closeTest_rest s.ptk.high

theorem State.boundNewest_rest (stop : Int) : (s.boundNewest stop).frt.rest = s.frt.rest := by
  unfold State.boundNewest
  dsimp only
  repeat' split
  all_goals simp [Frt.rest]

theorem State.truncateNewest_rest (tick : Int) : (s.truncateNewest tick).frt.rest = s.frt.rest := by
  unfold State.truncateNewest
  dsimp only
  repeat' split
  all_goals simp [Frt.rest]

theorem State.openFrame_rest (number : Nat) (start : Int) (kind : BoundaryKind) :
    (s.openFrame number start kind).frt.rest = s.frt.rest := by
  rcases s.openFrame_cases number start kind with ⟨-, h⟩ | ⟨-, ⟨-, h⟩ | ⟨i, t, ha, h⟩⟩
  · rw [h]; simp
  · rw [h]; simp
  · have hframe := (s.allocate_frame number start kind).2.2.2.2.2.2.1
    rw [ha] at hframe
    rw [h, ← hframe]; rfl

end Rest

section Boundary

variable (s : State) (tick : Int) (kind : BoundaryKind)

theorem State.boundaryBegun_frame :
    (s.boundaryBegun kind).tru = s.tru.takeBoundary (decide (s.frt.state = .seeking))
      ∧ (s.boundaryBegun kind).lanes = s.lanes.map Lane.promote
      ∧ (s.boundaryBegun kind).frt = { s.frt with counter := (s.frt.counter + 1) % 4294967296 }
      ∧ (s.boundaryBegun kind).slm = s.slm ∧ (s.boundaryBegun kind).dle = s.dle ∧ (s.boundaryBegun kind).layout = s.layout
      ∧ (s.boundaryBegun kind).ptk = s.ptk ∧ (s.boundaryBegun kind).rnc = s.rnc
      ∧ (s.boundaryBegun kind).ntu.counters.frames = s.ntu.counters.frames := by
  unfold State.boundaryBegun
  dsimp only
  split <;> simp

theorem State.takeBoundary_tru : (s.takeBoundary tick kind).tru = s.tru.takeBoundary (decide (s.frt.state = .seeking)) := by
  rw [State.takeBoundary_eq, ← (s.boundaryBegun_frame kind).1]
  calc (((s.boundaryClosed tick kind).openFrame s.frt.counter (tick + (s.frt.record.offset : Int)) kind).tracking tick).tru
      = ((s.boundaryClosed tick kind).openFrame s.frt.counter (tick + (s.frt.record.offset : Int)) kind).tru := rfl
    _ = (s.boundaryBegun kind).tru := by simp [State.boundaryClosed]

theorem State.takeBoundary_lanes : (s.takeBoundary tick kind).lanes = s.lanes.map Lane.promote := by
  rw [State.takeBoundary_eq, ← (s.boundaryBegun_frame kind).2.1]
  calc (((s.boundaryClosed tick kind).openFrame s.frt.counter (tick + (s.frt.record.offset : Int)) kind).tracking tick).lanes
      = ((s.boundaryClosed tick kind).openFrame s.frt.counter (tick + (s.frt.record.offset : Int)) kind).lanes := rfl
    _ = (s.boundaryBegun kind).lanes := by simp [State.boundaryClosed]

theorem State.takeBoundary_rest : (s.takeBoundary tick kind).frt.rest
    = { s.frt.rest with counter := (s.frt.counter + 1) % 4294967296, lastBoundary := some tick, state := .tracking } := by
  have hopened : ((s.boundaryClosed tick kind).openFrame s.frt.counter (tick + (s.frt.record.offset : Int)) kind).frt.rest
      = { s.frt.rest with counter := (s.frt.counter + 1) % 4294967296 } := by
    rw [State.openFrame_rest, State.boundaryClosed, State.closeTest_rest, State.boundNewest_rest, (s.boundaryBegun_frame kind).2.2.1]
    rfl
  rw [State.takeBoundary_eq]
  calc (((s.boundaryClosed tick kind).openFrame s.frt.counter (tick + (s.frt.record.offset : Int)) kind).tracking tick).frt.rest
      = { ((s.boundaryClosed tick kind).openFrame s.frt.counter (tick + (s.frt.record.offset : Int)) kind).frt.rest with
          lastBoundary := some tick, state := .tracking } := rfl
    _ = _ := by rw [hopened]

end Boundary

/-! ## The Trigger Unit at a boundary (R29, R30, R71) -/

section Tru

variable (u : Tru)

theorem Tru.takeBoundary_same (h : u.staged = none) : u.takeBoundary false = u := by
  simp [Tru.takeBoundary, Tru.switchLoop, h]

/-- A boundary that takes framing from SEEKING, or applies staged bounds, sets the pointer to loop start with nothing skipped. -/
theorem Tru.takeBoundary_restarts {seeking : Bool} (h : u.staged.isSome = true ∨ seeking = true) :
    (u.takeBoundary seeking).pointer = (u.takeBoundary seeking).loop.first ∧ (u.takeBoundary seeking).skipped = 0 := by
  unfold Tru.takeBoundary Tru.switchLoop
  split
  · exact ⟨rfl, rfl⟩
  · next hno =>
    cases hs : u.staged with
    | none => rw [hs] at h; exact absurd h (by simp [hno])
    | some b => exact ⟨rfl, rfl⟩

theorem Tru.takeBoundary_loop (seeking : Bool) :
    (u.takeBoundary seeking).loop = u.staged.getD u.loop ∧ (u.takeBoundary seeking).staged = none
      ∧ (u.takeBoundary seeking).strobes = u.strobes ∧ (u.takeBoundary seeking).table = u.table := by
  unfold Tru.takeBoundary Tru.switchLoop Tru.pointerToStart
  cases hs : u.staged <;> split <;> simp [hs]

/-- The group in progress goes on through a boundary but for the mark that its pointer is set. -/
theorem Tru.takeBoundary_group (seeking : Bool) :
    (u.takeBoundary seeking).group.map (fun g => (g.tick, g.time, g.entries, g.issued))
        = u.group.map (fun g => (g.tick, g.time, g.entries, g.issued))
      ∧ ((u.takeBoundary seeking).group = none ↔ u.group = none) := by
  unfold Tru.takeBoundary Tru.switchLoop Tru.pointerToStart
  cases hg : u.group <;> cases hs : u.staged <;> split <;> simp [hg]

end Tru

/-! ## A group issued, and an overspeed tick (R30, R31, R36) -/

theorem groupAt_ne_nil (table : Eight PhaseEntry) (i : Fin 8) : ∃ e es, groupAt table i = e :: es := by
  unfold groupAt groupFrom
  rw [dif_pos i.isLt]
  split
  · exact ⟨_, _, rfl⟩
  · exact ⟨_, _, rfl⟩

/-- The group a tick starts at the pointer (R31). -/
def State.groupStarted (s : State) (tick : Int) : State :=
  { s with tru := { s.tru with
    group := some { tick := tick, time := s.now, entries := groupAt s.tru.table s.tru.pointer, issued := 0, pointerSet := false } } }

section Decide

variable {s : State} {tick : Int}

theorem State.decideTick_issues (hr : s.rnc.runState = .running) (ht : s.frt.state = .tracking) (hg : s.tru.group = none) :
    s.decideTick tick = (s.groupStarted tick).issueNext :=
  (if_pos ⟨hr, ht⟩).trans (if_pos (by rw [hg]; rfl))

theorem State.decideTick_busy {g : Group} (hr : s.rnc.runState = .running) (ht : s.frt.state = .tracking) (hg : s.tru.group = some g) :
    s.decideTick tick = s.overspeedTick tick :=
  (if_pos ⟨hr, ht⟩).trans (if_neg (by rw [hg]; exact nofun))

theorem State.decideTick_idle (h : ¬ (s.rnc.runState = .running ∧ s.frt.state = .tracking)) : s.decideTick tick = s := if_neg h

theorem State.groupStarted_issues (s : State) (tick : Int) :
    (s.groupStarted tick).issueNext.tru.group = some
      { tick := tick, time := s.now, entries := groupAt s.tru.table s.tru.pointer, issued := 1, pointerSet := false } := by
  obtain ⟨e, es, he⟩ := groupAt_ne_nil s.tru.table s.tru.pointer
  have hfirst : (groupAt s.tru.table s.tru.pointer)[0]? = some e := by rw [he]; rfl
  rw [State.issueNext_eq (s := s.groupStarted tick) rfl hfirst]
  rfl

theorem State.overspeedTick_tru (s : State) (tick : Int) :
    (s.overspeedTick tick).tru = { s.tru with skipped := min 65535 (s.tru.skipped + 1) } := by
  have hmarks := foldl_keeps State.tru (fun s l => s.overspeedMarks tick l) (fun s l => by simp) indices s
  simp [State.overspeedTick, hmarks, satAdd, Config.edgeMax]

/-- The fills an overspeed tick asks for (R36). -/
def State.overspeedFills (s : State) (tick : Int) : List Fill :=
  indices.flatMap fun l => s.tru.planes.flatMap fun k => (s.lanes.get l).asks l k tick (overspeedCause (s.lanes.get l).state)

theorem State.mem_overspeedFills {f : Fill} (h : f ∈ s.overspeedFills tick) :
    overspeedCause (s.lanes.get f.lane).state = some f.cause := by
  obtain ⟨l, -, hl⟩ := List.mem_flatMap.mp h
  obtain ⟨k, -, hk⟩ := List.mem_flatMap.mp hl
  obtain ⟨hlane, hc⟩ := Lane.mem_asks hk
  rw [hlane]; exact hc

theorem State.overspeedMarks_filledBy {u : State} (hlanes : u.lanes = s.lanes) (htru : u.tru = s.tru) (l : Fin 8) :
    FilledBy (s.tru.planes.flatMap fun k => (s.lanes.get l).asks l k tick (overspeedCause (s.lanes.get l).state)) u
      (u.overspeedMarks tick l) := by
  unfold State.overspeedMarks
  rw [hlanes, htru]
  cases hc : overspeedCause (s.lanes.get l).state with
  | none =>
    have hnil : (s.tru.planes.flatMap fun k => (s.lanes.get l).asks l k tick none) = [] := List.flatMap_eq_nil_iff.mpr fun _ _ => rfl
    rw [hnil]
    exact .none rfl
  | some c =>
    refine FilledBy.foldl (Good := fun v => v.lanes = s.lanes) (fun v k hv => by simpa using hv) (fun v k hv => ?_) s.tru.planes u hlanes
    have hposition : v.positionAt l tick = tick - ((s.lanes.get l).record.offset : Int) := by rw [State.positionAt, hv]
    have hmark := FilledBy.mark v l k (v.positionAt l tick) c
    rw [hposition] at hmark ⊢
    exact hmark

theorem State.overspeedTick_filledBy (s : State) (tick : Int) : FilledBy (s.overspeedFills tick) s (s.overspeedTick tick) := by
  have hmarks := FilledBy.foldl (op := fun u l => u.overspeedMarks tick l)
    (asks := fun l => s.tru.planes.flatMap fun k => (s.lanes.get l).asks l k tick (overspeedCause (s.lanes.get l).state))
    (Good := fun u => u.lanes = s.lanes ∧ u.tru = s.tru) (fun u l hu => by simpa using hu)
    (fun u l hu => State.overspeedMarks_filledBy hu.1 hu.2 l) indices s ⟨rfl, rfl⟩
  exact hmarks.after (by simp [State.overspeedTick])

end Decide

end Sys2Proof.Machine

/-! # What a tick brings (R8, R30, R31, R36, R67, R72 to R75) -/

namespace Sys2Proof.Machine

theorem Frt.of_rest {f g : Frt} (h : f.rest = g.rest) :
    f.counter = g.counter ∧ f.state = g.state ∧ f.lastBoundary = g.lastBoundary := by
  simp only [Frt.rest, Frt.mk.injEq] at h
  simp [h]

/-! ## The judgement -/

section Judged

variable {s : State} {tick : Int} {edges : Nat}

theorem State.judgeTick_boundary {kind : BoundaryKind} (hr : s.rnc.runState = .running) (hj : (s.frt.judge tick edges).1 = some kind) :
    s.judgeTick tick edges = (s.takeBoundary tick kind).spurious tick (s.frt.judge tick edges).2 := by
  rcases s.judgeTick_cases tick edges with ⟨h, -⟩ | ⟨-, ⟨k, spare, hk, h⟩ | ⟨spare, hk, -⟩⟩
  · exact absurd hr h
  · rw [hk] at hj ⊢
    cases Option.some.inj hj
    exact h
  · rw [hk] at hj; cases hj

theorem State.judgeTick_none (hr : s.rnc.runState = .running) (hj : (s.frt.judge tick edges).1 = none) :
    (s.frt.state = .tracking → s.judgeTick tick edges = (s.spurious tick (s.frt.judge tick edges).2).truncateNewest tick)
      ∧ (s.frt.state = .seeking → s.judgeTick tick edges = s.spurious tick (s.frt.judge tick edges).2) := by
  rcases s.judgeTick_cases tick edges with ⟨h, -⟩ | ⟨-, ⟨k, spare, hk, h⟩ | ⟨spare, hk, ⟨hstate, h⟩ | ⟨hstate, h⟩⟩⟩
  · exact absurd hr h
  · rw [hk] at hj; cases hj
  · rw [hk]; exact ⟨fun _ => h, fun hs => FramingState.noConfusion (hstate.symm.trans hs)⟩
  · rw [hk]; exact ⟨fun hs => FramingState.noConfusion (hstate.symm.trans hs), fun _ => h⟩

/-- A tick without a boundary leaves the Trigger Unit, the lanes and all of framing but the open list. -/
theorem State.judgeTick_same (hr : s.rnc.runState = .running) (hj : (s.frt.judge tick edges).1 = none) :
    (s.judgeTick tick edges).frt.rest = s.frt.rest ∧ (s.judgeTick tick edges).tru = s.tru ∧ (s.judgeTick tick edges).lanes = s.lanes := by
  obtain ⟨htracking, hseeking⟩ := State.judgeTick_none hr hj
  cases hstate : s.frt.state with
  | tracking => rw [htracking hstate, State.truncateNewest_rest]; simp
  | seeking => rw [hseeking hstate]; simp

/-- A tick with a boundary takes it. -/
theorem State.judgeTick_taken (hr : s.rnc.runState = .running) (hj : (s.frt.judge tick edges).1 ≠ none) :
    (s.judgeTick tick edges).frt.rest
        = { s.frt.rest with counter := (s.frt.counter + 1) % 4294967296, lastBoundary := some tick, state := .tracking }
      ∧ (s.judgeTick tick edges).tru = s.tru.takeBoundary (decide (s.frt.state = .seeking))
      ∧ (s.judgeTick tick edges).lanes = s.lanes.map Lane.promote := by
  obtain ⟨kind, hkind⟩ := Option.ne_none_iff_exists'.mp hj
  rw [State.judgeTick_boundary hr hkind, ← s.takeBoundary_rest tick kind, ← s.takeBoundary_tru tick kind, ← s.takeBoundary_lanes tick kind]
  simp

/-- The Trigger Unit once a tick is judged: its group goes on, and its pointer is at loop start with nothing skipped where a boundary
took framing from SEEKING or applied staged bounds (R29, R30). -/
theorem State.judgeTick_tru (hr : s.rnc.runState = .running) :
    let restarts := (s.frt.judge tick edges).1 ≠ none ∧ (s.tru.staged.isSome = true ∨ s.frt.state = .seeking)
    let u := (s.judgeTick tick edges).tru
    u.pointer = (if restarts then u.loop.first else s.tru.pointer) ∧ u.skipped = (if restarts then 0 else s.tru.skipped)
      ∧ u.table = s.tru.table ∧ u.strobes = s.tru.strobes ∧ (u.group = none ↔ s.tru.group = none)
      ∧ u.group.map (fun g => (g.tick, g.time, g.entries, g.issued)) = s.tru.group.map fun g => (g.tick, g.time, g.entries, g.issued) := by
  dsimp only
  by_cases hj : (s.frt.judge tick edges).1 = none
  · have hno : ¬ ((s.frt.judge tick edges).1 ≠ none ∧ (s.tru.staged.isSome = true ∨ s.frt.state = .seeking)) := fun h => h.1 hj
    rw [(State.judgeTick_same hr hj).2.1, if_neg hno, if_neg hno]
    exact ⟨rfl, rfl, rfl, rfl, .rfl, rfl⟩
  · rw [(State.judgeTick_taken hr hj).2.1]
    obtain ⟨-, -, hstrobes, htable⟩ := s.tru.takeBoundary_loop (decide (s.frt.state = .seeking))
    obtain ⟨hgroup, hnone⟩ := s.tru.takeBoundary_group (decide (s.frt.state = .seeking))
    by_cases hrestart : s.tru.staged.isSome = true ∨ s.frt.state = .seeking
    · obtain ⟨hpointer, hskipped⟩ := s.tru.takeBoundary_restarts (seeking := decide (s.frt.state = .seeking)) (by simpa using hrestart)
      rw [if_pos ⟨hj, hrestart⟩, if_pos ⟨hj, hrestart⟩]
      exact ⟨hpointer, hskipped, htable, hstrobes, hnone, hgroup⟩
    · rw [if_neg fun h => hrestart h.2, if_neg fun h => hrestart h.2]
      obtain ⟨hstaged, hseeking⟩ := not_or.mp hrestart
      have hsame : s.tru.takeBoundary (decide (s.frt.state = .seeking)) = s.tru := by
        rw [decide_eq_false hseeking]
        exact s.tru.takeBoundary_same (by simpa using hstaged)
      rw [hsame]
      exact ⟨rfl, rfl, rfl, rfl, .rfl, rfl⟩

theorem State.judgeTick_queues (hr : s.rnc.runState = .running) :
    (s.judgeTick tick edges).lanes.map Lane.queue = s.lanes.map Lane.queue := by
  by_cases hj : (s.frt.judge tick edges).1 = none
  · rw [(State.judgeTick_same hr hj).2.2]
  · rw [(State.judgeTick_taken hr hj).2.2]
    have hqueue (n : Lane) : n.promote.queue = n.queue := by unfold Lane.promote; split <;> rfl
    simp [Eight.map, hqueue]

theorem State.judgeTick_not_running (hr : s.rnc.runState ≠ .running) : s.judgeTick tick edges = s := by
  rcases s.judgeTick_cases tick edges with ⟨-, h⟩ | ⟨h, -⟩
  · exact h
  · exact absurd h hr

theorem State.spurious_pending (s : State) (tick : Int) {n : Nat} (h : 0 < n) :
    maskHas (s.spurious tick n).ntu.pending .indexSpurious = true := by
  rw [State.spurious, if_neg (Nat.ne_of_gt h), State.raise_pending]; simp

/-- The sources a tick's judgement raises (R72, R73). -/
theorem State.judgeTick_pending (hr : s.rnc.runState = .running) :
    (0 < (s.frt.judge tick edges).2 → maskHas (s.judgeTick tick edges).ntu.pending .indexSpurious = true)
      ∧ ((s.frt.judge tick edges).1 = some .synth → maskHas (s.judgeTick tick edges).ntu.pending .indexSynth = true) := by
  cases hj : (s.frt.judge tick edges).1 with
  | none =>
    obtain ⟨htracking, hseeking⟩ := State.judgeTick_none hr hj
    refine ⟨fun hpos => ?_, nofun⟩
    cases hstate : s.frt.state with
    | tracking => rw [htracking hstate, (State.truncateNewest_frame _ _).2.2.2.2.2.2.2.2.2.2.2.2.2.1]; exact s.spurious_pending tick hpos
    | seeking => rw [hseeking hstate]; exact s.spurious_pending tick hpos
  | some kind =>
    rw [State.judgeTick_boundary hr hj]
    refine ⟨fun hpos => State.spurious_pending _ tick hpos, fun hk => ?_⟩
    exact (State.spurious_raises _ _ _).stays _ ((s.takeBoundary_raises tick kind).2 (Option.some.inj hk))

/-- The judgement of a tick while SEEKING, and while TRACKING some ticks after a boundary (R67, R72, R73, R74). -/
theorem Frt.judge_spec (f : Frt) (tick : Int) (c : Nat) :
    (f.state = .seeking → f.record.mode = .indexed →
        f.judge tick c = if c = 0 then (none, 0) else if f.rewindHold then (none, c) else (some .index, c - 1))
      ∧ (f.state = .seeking → f.record.mode = .fixed → f.judge tick c = if f.rewindHold then (none, 0) else (some .fixed, 0))
      ∧ ∀ b, f.state = .tracking → f.lastBoundary = some b →
        (f.record.mode = .indexed → f.judge tick c =
            if 1 ≤ c then if tick - b < (f.record.nominal : Int) - f.record.tolerance then (none, c) else (some .index, c - 1)
            else if tick - b = (f.record.nominal : Int) + f.record.tolerance then (some .synth, 0) else (none, 0))
          ∧ (f.record.mode = .fixed → f.judge tick c = if tick - b = f.record.nominal then (some .fixed, 0) else (none, 0)) := by
  refine ⟨fun hs hm => ?_, fun hs hm => ?_, fun b hs hb => ⟨fun hm => ?_, fun hm => ?_⟩⟩ <;> simp only [Frt.judge, hs, hm]
  · rw [hb]
  · rw [hb]

end Judged

/-! ## Truncation (R75) -/

section Truncation

variable {s : State} {tick : Int} {f : OpenFrame}

/-- Whether a tick reaches the row capacity of a frame that is not bounded. -/
def State.reachesCapacity (s : State) (tick : Int) (f : OpenFrame) : Prop := f.stop = none ∧ f.start + (s.frt.capacity : Int) ≤ tick

theorem State.truncateNewest_none (h : ∀ f, s.frt.openList.getLast? = some f → ¬ s.reachesCapacity tick f) : s.truncateNewest tick = s := by
  unfold State.truncateNewest
  split
  · rfl
  · next f hf => exact if_neg (h f hf)

theorem State.truncateNewest_some (hf : s.frt.openList.getLast? = some f) (h : s.reachesCapacity tick f) :
    s.truncateNewest tick = State.countFrames
      (State.boundSlot
        { s with frt := { s.frt with
          openList := s.frt.openList.dropLast ++ [{ f with stop := some (f.start + (s.frt.capacity : Int)), truncated := true }] } }
        f.slot (f.start + (s.frt.capacity : Int)))
      fun c => { c with truncated := countUp 1 c.truncated } := by
  unfold State.truncateNewest
  rw [hf]
  exact if_pos h

end Truncation

theorem State.boundSlot_slot {s : State} {i : Nat} (h : i < s.slm.slots.length) (stop : Int) (j : Nat) :
    (s.boundSlot i stop).slot j = if j = i then { s.slot i with stop := some stop } else s.slot j :=
  State.setSlot_slot s i j _ h

/-! ## A tick handed on (R7, R8, R18, R30) -/

/-- The state in which a tick is judged: the count decoded, a line pitch carried, the tick emitted and counted, its edges taken. -/
def State.ticking (s : State) (line : EncLine) : State :=
  let v := (s.afterMotion line).carried
  let u := State.countPosition { v with ptk := v.ptk.emit v.now } fun c => { c with ticks := countUp 1 c.ticks }
  { u with ptk := { u.ptk with pendingEdges := 0 } }

/-- What a tick handed on does (R67, R30). -/
def State.handed (s : State) (tick : Int) (edges : Nat) : State := ((s.judgeTick tick edges).decideTick tick).progressed

section Handed

variable {s : State} {line : EncLine}

theorem State.ticking_frame (s : State) (line : EncLine) :
    (s.ticking line).tru = s.tru ∧ (s.ticking line).lanes = s.lanes ∧ (s.ticking line).frt = s.frt ∧ (s.ticking line).rnc = s.rnc
      ∧ (s.ticking line).now = s.now ∧ (s.ticking line).slm = s.slm
      ∧ (s.ticking line).ntu.counters.position = { s.ntu.counters.position with ticks := countUp 1 s.ntu.counters.position.ticks } := by
  obtain ⟨-, hnow, -, htru, hlanes, hfrt, hslm, -, -, hrnc, -, hcounters⟩ := s.afterMotion_frame line
  refine ⟨htru, hlanes, hfrt, hrnc, hnow, hslm, ?_⟩
  have hposition : (s.ticking line).ntu.counters.position
      = { (s.afterMotion line).ntu.counters.position with
          ticks := countUp 1 (s.afterMotion line).ntu.counters.position.ticks } := rfl
  rw [hposition, hcounters]

/-- Outside CONFIG a forward count that carries T beyond H hands its tick on. -/
theorem State.takeCount_hands (hf : s.ptk.countForward line = true) (hp : s.ptk.scale.pitch ≤ s.ptk.acc + s.ptk.scale.step)
    (hh : s.ptk.high < s.ptk.tick + 1) (hmax : s.ptk.tick + 1 ≤ 140737488355327) (hr : s.rnc.runState ≠ .config) :
    s.takeCount line = (s.ticking line).handed (s.ptk.tick + 1) s.ptk.pendingEdges := by
  obtain ⟨hscale, hacc, htick, hhigh, -, -, hedges⟩ := s.afterMotion_readings line
  have hrun : (s.afterMotion line).rnc.runState ≠ .config := by
    rw [(s.afterMotion_frame line).2.2.2.2.2.2.2.2.2.1]; exact hr
  have hcount : s.takeCount line = (s.afterMotion line).carried.emitTick := by
    rw [State.takeCount_eq, if_pos hf]
    refine State.forwardCount_ticks ?_ ?_ ?_
    · rw [hscale, hacc]; exact hp
    · rw [htick]; exact hmax
    · rw [hhigh, htick]; exact hh
  rw [hcount, ← htick, ← hedges]
  exact if_neg hrun

end Handed

section Ticked

variable {s : State} {tick : Int} {edges : Nat}

theorem State.handed_rest (s : State) (tick : Int) (edges : Nat) :
    (s.handed tick edges).frt.rest = (s.judgeTick tick edges).frt.rest := by
  rw [State.handed, State.progressed_rest]; simp

theorem State.handed_frame (s : State) (tick : Int) (edges : Nat) :
    (s.handed tick edges).tru = ((s.judgeTick tick edges).decideTick tick).tru
      ∧ (s.handed tick edges).lanes = ((s.judgeTick tick edges).decideTick tick).lanes
      ∧ (s.handed tick edges).ntu = ((s.judgeTick tick edges).decideTick tick).ntu := by
  simp [State.handed]

theorem State.issueNext_loop (s : State) : s.issueNext.tru.loop = s.tru.loop := by
  rcases s.issueNext_cases with h | ⟨g, e, -, -, h⟩
  · rw [h]
  · rw [h, State.oneIssued, State.offered]
    simp [State.pulsed, Tru.pulse]

/-- The position counters after a tick handed on, overspeed ticks apart (R72, R73). -/
theorem State.decideTick_position (s : State) (tick : Int) :
    (s.decideTick tick).ntu.counters.position
      = { s.ntu.counters.position with overspeedTicks := (s.decideTick tick).ntu.counters.position.overspeedTicks } := by
  unfold State.decideTick
  split
  · split
    · rw [State.issueGroup, State.issueNext_position]
    · rw [State.overspeedTick_position]
  · rfl

theorem State.judged_state_of_rest {u : State} (h : u.frt.rest = (s.judgeTick tick edges).frt.rest) :
    (s.judgeTick tick edges).frt.state = u.frt.state := by
  exact (Frt.of_rest h).2.1.symm

/-- Where framing is TRACKING once a tick is judged, an idle Trigger Unit issues the group at its pointer. -/
theorem State.handed_issues (hr : s.rnc.runState = .running) (ht : (s.handed tick edges).frt.state = .tracking)
    (hg : (s.judgeTick tick edges).tru.group = none) :
    (s.handed tick edges).tru.group = some
        { tick := tick, time := s.now, entries := groupAt (s.judgeTick tick edges).tru.table (s.judgeTick tick edges).tru.pointer,
          issued := 1, pointerSet := false }
      ∧ (s.handed tick edges).tru.loop = (s.judgeTick tick edges).tru.loop
      ∧ (s.handed tick edges).ntu.counters.position.overspeedTicks
        = (s.judgeTick tick edges).ntu.counters.position.overspeedTicks := by
  have hstate := State.judged_state_of_rest (s.handed_rest tick edges)
  have hstep := State.decideTick_issues (s := s.judgeTick tick edges) (tick := tick) (by simpa using hr) (hstate.trans ht) hg
  obtain ⟨htru, -, hntu⟩ := s.handed_frame tick edges
  rw [htru, hntu, hstep]
  refine ⟨?_, ?_, congrArg PositionCounters.overspeedTicks (State.issueNext_position _)⟩
  · rw [State.groupStarted_issues]
    simp
  · rw [State.issueNext_loop]; rfl

/-- Where framing is TRACKING once a tick is judged, a busy Trigger Unit skips a group. -/
theorem State.handed_overspeed {g : Group} (hr : s.rnc.runState = .running) (ht : (s.handed tick edges).frt.state = .tracking)
    (hg : (s.judgeTick tick edges).tru.group = some g) :
    (s.handed tick edges).tru
        = { (s.judgeTick tick edges).tru with skipped := min 65535 ((s.judgeTick tick edges).tru.skipped + 1) }
      ∧ (s.handed tick edges).lanes = (s.judgeTick tick edges).lanes
      ∧ (s.handed tick edges).ntu.counters.position.overspeedTicks
        = min 4294967295 ((s.judgeTick tick edges).ntu.counters.position.overspeedTicks + 1)
      ∧ maskHas (s.handed tick edges).ntu.pending .overspeed = true := by
  have hstate := State.judged_state_of_rest (s.handed_rest tick edges)
  have hstep := State.decideTick_busy (s := s.judgeTick tick edges) (tick := tick) (by simpa using hr) (hstate.trans ht) hg
  obtain ⟨htru, hlanes, hntu⟩ := s.handed_frame tick edges
  rw [htru, hlanes, hntu, hstep]
  refine ⟨State.overspeedTick_tru _ _, by simp, ?_, (State.overspeedTick_raises _ _).2⟩
  rw [State.overspeedTick_position]
  rfl

/-- Where framing is SEEKING once a tick is judged, or outside RUNNING, nothing is issued. -/
theorem State.handed_idle (h : ¬ (s.rnc.runState = .running ∧ (s.handed tick edges).frt.state = .tracking)) :
    (s.handed tick edges).tru = (s.judgeTick tick edges).tru ∧ (s.handed tick edges).lanes = (s.judgeTick tick edges).lanes := by
  have hstate := State.judged_state_of_rest (s.handed_rest tick edges)
  have hstep : (s.judgeTick tick edges).decideTick tick = s.judgeTick tick edges :=
    State.decideTick_idle fun hx => h ⟨by simpa using hx.1, hstate.symm.trans hx.2⟩
  obtain ⟨htru, hlanes, -⟩ := s.handed_frame tick edges
  rw [htru, hlanes, hstep]
  exact ⟨rfl, rfl⟩

theorem State.handed_raises (s : State) (tick : Int) (edges : Nat) : Raises (s.judgeTick tick edges) (s.handed tick edges) :=
  (State.decideTick_raises _ _).trans (State.progressed_raises _)

theorem State.handed_position (s : State) (tick : Int) (edges : Nat) :
    (s.handed tick edges).ntu.counters.position.spuriousIndex = (s.judgeTick tick edges).ntu.counters.position.spuriousIndex
      ∧ (s.handed tick edges).ntu.counters.position.synthesisedIndex
        = (s.judgeTick tick edges).ntu.counters.position.synthesisedIndex := by
  obtain ⟨-, -, hntu⟩ := s.handed_frame tick edges
  rw [hntu, State.decideTick_position]
  exact ⟨rfl, rfl⟩

end Ticked

/-- Settles O40: the judgement, what it does with the decision that follows, the truncation, and the offer or the overspeed marks. -/
theorem ticksAreJudgedAndDecided : Obligations.TicksAreJudgedAndDecided := by
  refine ⟨fun f tick c => ?judge, fun s line t hs hforward hpitch hhigh hmax ht => ?handed, fun s tick edges hr hj => ?truncated,
    fun s tick hr htracking => ?decided⟩
  case judge =>
    obtain ⟨hindexed, hfixed, htracking⟩ := f.judge_spec tick c
    refine ⟨hindexed, hfixed, fun b hs hb => ?_⟩
    obtain ⟨hindexed, hfixed⟩ := htracking b hs hb
    refine ⟨fun hm hc hlt => ?_, fun hm hc hle => ?_, fun hm hc hg => ?_, fun hm hc hg => ?_, hfixed⟩
    · rw [hindexed hm, if_pos hc, if_pos hlt]
    · rw [hindexed hm, if_pos hc, if_neg (not_lt.mpr hle)]
    · rw [hindexed hm, if_neg (by omega), if_pos hg]
    · rw [hindexed hm, if_neg (by omega), if_neg hg]
  case handed =>
    rw [exec_count line hs] at ht
    have hend := Host.Outcome.next.inj ht
    have hparts : t.frt = (s.takeCount line).frt ∧ t.tru = (s.takeCount line).tru ∧ t.lanes = (s.takeCount line).lanes
        ∧ t.ntu = (s.takeCount line).ntu := by
      rw [← hend]; simp
    clear ht hend
    obtain ⟨hfrt, htru, hlanes, hntu⟩ := hparts
    obtain ⟨wtru, wlanes, wfrt, wrnc, wnow, -, wposition⟩ := s.ticking_frame line
    have hhanded : s.rnc.runState ≠ .config → t.frt.rest = ((s.ticking line).handed (s.ptk.tick + 1) s.ptk.pendingEdges).frt.rest
        ∧ t.tru = ((s.ticking line).handed (s.ptk.tick + 1) s.ptk.pendingEdges).tru
        ∧ t.lanes = ((s.ticking line).handed (s.ptk.tick + 1) s.ptk.pendingEdges).lanes
        ∧ t.ntu = ((s.ticking line).handed (s.ptk.tick + 1) s.ptk.pendingEdges).ntu := fun hr => by
      rw [hfrt, htru, hlanes, hntu, State.takeCount_hands hforward hpitch hhigh hmax hr]
      exact ⟨rfl, rfl, rfl, rfl⟩
    have hspurious : s.ntu.counters.position.spuriousIndex = (s.ticking line).ntu.counters.position.spuriousIndex := by rw [wposition]
    have hsynthesised : s.ntu.counters.position.synthesisedIndex = (s.ticking line).ntu.counters.position.synthesisedIndex := by
      rw [wposition]
    have hoverspeed : s.ntu.counters.position.overspeedTicks = (s.ticking line).ntu.counters.position.overspeedTicks := by rw [wposition]
    rw [hspurious, hsynthesised, hoverspeed, ← wtru, ← wlanes, ← wfrt, ← wrnc, ← wnow]
    rw [← wrnc] at hhanded
    clear hspurious hsynthesised hoverspeed wtru wlanes wfrt wrnc wnow wposition hfrt htru hlanes hntu
    generalize s.ticking line = w at *
    generalize s.ptk.tick + 1 = tick at *
    generalize s.ptk.pendingEdges = edges at *
    refine ⟨fun hr => ?running, fun hr => ?draining⟩
    case running =>
      obtain ⟨hrest, htru, hlanes, hntu⟩ := hhanded (by rw [hr]; exact RunState.noConfusion)
      have hjudgedRest := hrest.trans (w.handed_rest tick edges)
      have hstate : (w.handed tick edges).frt.state = t.frt.state := (Frt.of_rest hrest).2.1.symm
      obtain ⟨hpendingSpurious, hpendingSynth⟩ := State.judgeTick_pending (tick := tick) (edges := edges) hr
      obtain ⟨hspurious, hsynthesised⟩ := w.handed_position tick edges
      have hraises := w.handed_raises tick edges
      have hcounted := w.judgeTick_position tick edges hr
      dsimp only at hcounted ⊢
      have hcountedSpurious := congrArg PositionCounters.spuriousIndex hcounted
      have hcountedSynth := congrArg PositionCounters.synthesisedIndex hcounted
      have hcountedOver := congrArg PositionCounters.overspeedTicks hcounted
      dsimp only at hcountedSpurious hcountedSynth hcountedOver
      rw [hntu, htru, hlanes, hspurious, hsynthesised, hcountedSpurious, hcountedSynth]
      refine ⟨fun hno => ?_, fun hsome => ?_, fun h0 => if_pos h0, fun hk => ⟨hraises.stays _ (hpendingSynth hk), if_pos hk⟩,
        fun hk => if_neg hk, fun hpos => ⟨if_neg (Nat.ne_of_gt hpos), hraises.stays _ (hpendingSpurious hpos)⟩,
        fun htracking hidle => ?_, fun g htracking hg => ?_, fun hseeking => ?_⟩
      · have hsame := hjudgedRest.trans (State.judgeTick_same hr hno).1
        exact Frt.of_rest hsame
      · have htaken := hjudgedRest.trans (State.judgeTick_taken hr hsome).1
        exact Frt.of_rest
          (g := { w.frt with counter := (w.frt.counter + 1) % 4294967296, lastBoundary := some tick, state := .tracking }) htaken
      · obtain ⟨hpointer, -, htable, -, hnone, -⟩ := State.judgeTick_tru (tick := tick) (edges := edges) hr
        obtain ⟨hgroup, hloop, hover⟩ := State.handed_issues hr (hstate.trans htracking) (hnone.mpr hidle)
        rw [hgroup, hover, hloop, hcountedOver, htable, hpointer]
        exact ⟨rfl, rfl, rfl⟩
      · obtain ⟨-, hskipped, -, hstrobes, hnone, hgroup⟩ := State.judgeTick_tru (tick := tick) (edges := edges) hr
        obtain ⟨h, hh⟩ := Option.ne_none_iff_exists'.mp fun hx => Option.some_ne_none g (hg.symm.trans (hnone.mp hx))
        obtain ⟨htru', hlanes', hover, hmask⟩ := State.handed_overspeed hr (hstate.trans htracking) hh
        rw [htru', hlanes', hover, hcountedOver]
        dsimp only
        rw [hskipped, hstrobes, hgroup, hg, State.judgeTick_queues hr]
        exact ⟨rfl, rfl, rfl, rfl, rfl, hmask⟩
      · have hnone : (w.frt.judge tick edges).1 = none := by
          by_contra hsome
          have htaken := hjudgedRest.trans (State.judgeTick_taken hr hsome).1
          have htracking := congrArg Frt.state htaken
          exact FramingState.noConfusion (hseeking.symm.trans htracking)
        obtain ⟨-, hsameTru, hsameLanes⟩ := State.judgeTick_same hr hnone
        obtain ⟨hidleTru, hidleLanes⟩ := State.handed_idle (s := w) (tick := tick) (edges := edges) fun h =>
          FramingState.noConfusion (hseeking.symm.trans (hstate.symm.trans h.2))
        exact ⟨hidleTru.trans hsameTru, hidleLanes.trans hsameLanes⟩
    case draining =>
      obtain ⟨hrest, htru, hlanes, -⟩ := hhanded (by rw [hr]; exact RunState.noConfusion)
      have hnot : w.rnc.runState ≠ .running := by rw [hr]; exact RunState.noConfusion
      obtain ⟨hidleTru, hidleLanes⟩ := State.handed_idle (tick := tick) (edges := edges) fun h => hnot h.1
      have hjudged := State.judgeTick_not_running (tick := tick) (edges := edges) hnot
      rw [hjudged] at hidleTru hidleLanes
      have hsame := hrest.trans (w.handed_rest tick edges)
      rw [hjudged] at hsame
      exact ⟨htru.trans hidleTru, hlanes.trans hidleLanes, Frt.of_rest hsame⟩
  case truncated =>
    obtain ⟨htracking, hseeking⟩ := State.judgeTick_none hr hj
    have hframe : (s.spurious tick (s.frt.judge tick edges).2).frt = s.frt ∧ (s.spurious tick (s.frt.judge tick edges).2).slm = s.slm
        ∧ (s.spurious tick (s.frt.judge tick edges).2).ntu.counters.frames = s.ntu.counters.frames := by
      refine ⟨by simp, by simp, ?_⟩
      unfold State.spurious
      split <;> simp
    generalize s.spurious tick (s.frt.judge tick edges).2 = v at *
    obtain ⟨hfrt, hslm, hcounters⟩ := hframe
    have hslot (i : Nat) : v.slot i = s.slot i := by unfold State.slot; rw [hslm]
    refine ⟨fun f ht hf hreaches hlt => ?_, fun hno => ?_⟩
    · have hreaches' : v.reachesCapacity tick f := by rw [State.reachesCapacity, hfrt]; exact hreaches
      dsimp only
      rw [htracking ht, State.truncateNewest_some (by rw [hfrt]; exact hf) hreaches', hfrt]
      refine ⟨rfl, ?_, fun i hi => ?_, ?_⟩
      · rw [← hslot, ← hslm] at *
        exact (State.boundSlot_slot hlt _ _).trans (if_pos rfl)
      · rw [← hslot, ← hslm] at *
        exact (State.boundSlot_slot hlt _ _).trans (if_neg hi)
      · rw [← hcounters]; rfl
    · have hsame : s.judgeTick tick edges = v := by
        cases hstate : s.frt.state with
        | seeking => exact hseeking hstate
        | tracking =>
          rw [htracking hstate]
          refine State.truncateNewest_none fun f hf hreaches => ?_
          rw [State.reachesCapacity, hfrt] at hreaches
          rw [hfrt] at hf
          rcases hno with hno | hno
          · exact FramingState.noConfusion (hstate.symm.trans hno)
          · exact hno f hf hreaches
      rw [hsame]
      exact ⟨hfrt, hslm, hcounters⟩
  case decided =>
    refine ⟨fun e es hg he => ?_, fun g hg l k => ?_⟩
    · have hfirst : (groupAt s.tru.table s.tru.pointer)[0]? = some e := by rw [he]; rfl
      rw [State.decideTick_issues hr htracking hg]
      exact State.issueNext_offers (s := s.groupStarted tick) rfl hfirst (.of_slm rfl) rfl rfl (State.issueNext_frame _).2.1
    · have hfilled := s.overspeedTick_filledBy tick
      rw [← State.decideTick_busy hr htracking hg] at hfilled
      dsimp only
      have hfills {c : FillCause} (hk : s.tru.planeSet.getLsbD k.val = true) (hc : overspeedCause (s.lanes.get l).state = some c) :
          s.fills (s.decideTick tick) l k (tick - ((s.lanes.get l).record.offset : Int)) c := by
        have hplane : k ∈ s.tru.planes := by
          rw [Tru.planeSet, planeMask_getLsbD] at hk
          exact of_decide_eq_true hk
        refine hfilled.fills (.of_slm rfl) ?_ fun f hf hl _ _ => ?_
        · exact List.mem_flatMap.mpr ⟨l, mem_indices l, List.mem_flatMap.mpr ⟨k, hplane, by rw [hc]; exact List.mem_singleton.mpr rfl⟩⟩
        · have hcause := State.mem_overspeedFills hf
          rw [hl, hc] at hcause
          exact (Option.some.inj hcause).symm
      refine ⟨fun hk => ⟨fun hn => hfills hk (by rw [hn]; rfl), fun hn => hfills hk (by rw [hn]; rfl),
        fun hn => hfills hk (by rw [hn]; rfl)⟩, fun hn => hfilled.keepsMarks (.of_slm rfl) fun f hf hl => ?_⟩
      have hcause := State.mem_overspeedFills hf
      rw [hl] at hcause
      rcases hn with hn | hn <;> rw [hn] at hcause <;> cases hcause

end Sys2Proof.Machine

/-! # Boundaries: the newest frame bounded, the close test, and the next frame (R68, R69, R70, R76, R90, R91, R92) -/

namespace Sys2Proof.Machine

/-! ## The newest frame bounded (R68) -/

section Bound

variable (s : State) (start : Int)

theorem State.boundNewest_openList : (s.boundNewest start).frt.openList = s.frt.boundedAt start := by
  unfold State.boundNewest Frt.boundedAt
  cases hf : s.frt.openList.getLast? with
  | none => exact List.getLast?_eq_none_iff.mp hf
  | some f =>
    dsimp only
    cases hstop : f.stop with
    | some e => rw [if_neg (Option.some_ne_none e)]
    | none =>
      dsimp only
      rw [if_pos rfl]
      split <;> rfl

theorem State.boundNewest_gates : SameGates s (s.boundNewest start) := by
  have hrest := congrArg Frt.stopTick (s.boundNewest_rest start)
  exact ⟨by simp, by simp, by simp, hrest, by simp⟩

theorem State.boundNewest_frames :
    ∃ n, (s.boundNewest start).ntu.counters.frames = { s.ntu.counters.frames with truncated := n } := by
  unfold State.boundNewest
  dsimp only
  repeat' split
  · exact ⟨_, rfl⟩
  · exact ⟨_, rfl⟩
  · exact ⟨_, rfl⟩
  · exact ⟨_, rfl⟩

/-- Bounding the newest frame reads and changes no more than framing and the slot table. -/
theorem State.boundNewest_slm_congr {s t : State} (hlist : t.frt.openList = s.frt.openList) (hcap : t.frt.capacity = s.frt.capacity)
    (hslm : t.slm = s.slm) (start : Int) : (t.boundNewest start).slm = (s.boundNewest start).slm := by
  have hset (i : Nat) (e : Int) : (t.boundSlot i e).slm = (s.boundSlot i e).slm := by
    unfold State.boundSlot State.setSlot; rw [hslm]
  unfold State.boundNewest
  rw [hlist, hcap]
  cases s.frt.openList.getLast? with
  | none => exact hslm
  | some f =>
    dsimp only
    cases f.stop with
    | some e => exact hslm
    | none =>
      dsimp only
      split <;> exact hset _ _

end Bound

/-- A frame bounded takes a bounded slot. -/
theorem State.boundNewest_framesOk {s : State} (hok : s.framesOk) (start : Int) :
    (s.boundNewest start).framesOk
      ∧ ∀ f ∈ s.frt.boundedAt start, (s.boundNewest start).slot f.slot = { s.slot f.slot with stop := f.stop } := by
  have hL := s.framesOk_iff.mp hok
  have hstops (f : OpenFrame) (hf : f ∈ s.frt.openList) : s.slot f.slot = { s.slot f.slot with stop := f.stop } := by
    have hstop : (s.slot f.slot).stop = f.stop := (hL.opened f hf).2.2.2
    rw [← hstop]
  have hsame (hlist : s.frt.boundedAt start = s.frt.openList) (hstep : s.boundNewest start = s) :
      (s.boundNewest start).framesOk
        ∧ ∀ f ∈ s.frt.boundedAt start, (s.boundNewest start).slot f.slot = { s.slot f.slot with stop := f.stop } := by
    rw [hstep, hlist]; exact ⟨hok, hstops⟩
  have hlist := s.boundNewest_openList start
  cases hlast : s.frt.openList.getLast? with
  | none =>
    have hstep : s.boundNewest start = s := by unfold State.boundNewest; rw [hlast]
    rw [hstep] at hlist
    exact hsame hlist.symm hstep
  | some x =>
    cases hstop : x.stop with
    | some e =>
      have hstep : s.boundNewest start = s := by unfold State.boundNewest; rw [hlast]; simp only [hstop]
      rw [hstep] at hlist
      exact hsame hlist.symm hstep
    | none =>
      have hsplit : s.frt.openList = s.frt.openList.dropLast ++ [x] := by
        obtain ⟨init, hinit⟩ := List.getLast?_eq_some_iff.mp hlast
        rw [hinit, List.dropLast_concat]
      have hmem : x ∈ s.frt.openList := by rw [hsplit]; simp
      obtain ⟨hstate, hframe, hstart, -⟩ := hL.opened x hmem
      have hfree : (s.slot x.slot).state ≠ .free := fun h => SlotState.noConfusion (hstate.symm.trans h)
      have hlt := s.lt_of_slot_ne_free hfree
      have hdistinct : ∀ f ∈ s.frt.openList.dropLast, f.slot ≠ x.slot := by
        have hnodup := hL.distinct
        rw [hsplit, List.map_append, List.nodup_append] at hnodup
        exact fun f hf => hnodup.2.2 _ (List.mem_map_of_mem hf) _ (by simp)
      have hbounded : s.frt.boundedAt start = s.frt.openList.dropLast ++
          [{ x with
            stop := some (min start (x.start + (s.frt.capacity : Int))),
            truncated := x.truncated || decide (x.start + (s.frt.capacity : Int) < start) }] := by
        unfold Frt.boundedAt
        rw [hlast]
        exact if_pos hstop
      have hslm : (s.boundNewest start).slm = (s.boundSlot x.slot (min start (x.start + (s.frt.capacity : Int)))).slm := by
        unfold State.boundNewest
        rw [hlast]
        simp only [hstop]
        split <;> rfl
      have hslot (j : Nat) : (s.boundNewest start).slot j = if j = x.slot then
          { s.slot x.slot with stop := some (min start (x.start + (s.frt.capacity : Int))) } else s.slot j := by
        rw [← State.boundSlot_slot hlt]
        unfold State.slot
        rw [hslm]
      have hledger : (s.boundNewest start).ledger = s.ledger.put x.slot
          { (s.slot x.slot).holding with stop := some (min start (x.start + (s.frt.capacity : Int))) } := by
        apply Ledger.ext
        · funext j
          have hj := hslot j
          show ((s.boundNewest start).slot j).holding = if j = x.slot then _ else (s.slot j).holding
          rw [hj]
          split <;> rfl
        · show (s.boundNewest start).slm.allocCounter = s.slm.allocCounter; simp
        · funext r
          have hdle : (s.boundNewest start).dle = s.dle := by simp
          show ((s.boundNewest start).dle.records.get r).map Delivery.charge = if (s.slot x.slot).state = .free then _ else _
          rw [if_neg hfree, hdle]
          rfl
        · funext r; show ((s.boundNewest start).dle.routes.get r).port = (s.dle.routes.get r).port; simp
        · funext p
          show decide (((s.boundNewest start).ports.get p).link = .down) = decide ((s.ports.get p).link = .down)
          simp
        · funext p; show ((s.boundNewest start).ports.get p).source = (s.ports.get p).source; simp
        · show (s.boundNewest start).rnc.runState = s.rnc.runState; simp
      refine ⟨?_, fun f hf => ?_⟩
      · rw [State.framesOk_iff, hledger, hlist, hbounded]
        refine hL.put ?_ (fun f hf => ?_) fun _ => ⟨hfree, rfl, fun hr => ?_, fun r d hd hdx hfinal => ?_⟩
        · have hnodup := hL.distinct
          rw [hsplit, List.map_append] at hnodup
          rw [List.map_append]
          exact hnodup
        · rcases List.mem_append.mp hf with hf | hf
          · exact .inl ⟨hdistinct f hf, by rw [hsplit]; exact List.mem_append_left _ hf⟩
          · rw [List.mem_singleton.mp hf]
            exact .inr ⟨rfl, hstate, hframe, hstart, rfl⟩
        · rcases hL.config hr x.slot with h | h
          · exact absurd h hfree
          · exact absurd (hstate.symm.trans h) SlotState.noConfusion
        · obtain ⟨hout, -⟩ := hL.owed r d hd hfinal
          rw [hdx] at hout
          exact ⟨hout, fun h => SlotState.noConfusion (hstate.symm.trans h)⟩
      · rw [hbounded] at hf
        rcases List.mem_append.mp hf with hf | hf
        · rw [hslot, if_neg (hdistinct f hf)]
          exact hstops f (by rw [hsplit]; exact List.mem_append_left _ hf)
        · rw [List.mem_singleton.mp hf, hslot, if_pos rfl]

/-! ## The close test reads no more than slots, records and gates (R76) -/

theorem State.closeSlot_congr {s t : State} (hslm : t.slm = s.slm) (hdle : t.dle = s.dle) (i rows : Nat) (reason : CloseReason) :
    (t.closeSlot i rows reason).slm = (s.closeSlot i rows reason).slm ∧ (t.closeSlot i rows reason).dle = (s.closeSlot i rows reason).dle := by
  rw [State.closeSlot_eq, State.closeSlot_eq]
  have hset : (t.setSlot i fun x => x.settled rows reason).slm = (s.setSlot i fun x => x.settled rows reason).slm
      ∧ (t.setSlot i fun x => x.settled rows reason).dle = (s.setSlot i fun x => x.settled rows reason).dle := by
    unfold State.setSlot; rw [hslm]; exact ⟨rfl, hdle⟩
  generalize (t.setSlot i fun x => x.settled rows reason) = v at *
  generalize (s.setSlot i fun x => x.settled rows reason) = w at *
  obtain ⟨hslm, hdle⟩ := hset
  have hslot : v.slot i = w.slot i := by unfold State.slot; rw [hslm]
  unfold State.freeingTest State.freeSlot State.dropRecords State.setSlot
  rw [hslot]
  dsimp only
  repeat' split
  · rw [hslm]; exact ⟨rfl, hdle⟩
  · rw [hslm, hdle]; exact ⟨rfl, rfl⟩
  · exact ⟨hslm, hdle⟩

theorem foldl_fullClose_congr (fs : List OpenFrame) {s t : State} (hslm : t.slm = s.slm) (hdle : t.dle = s.dle) :
    (fs.foldl State.fullClose t).slm = (fs.foldl State.fullClose s).slm ∧ (fs.foldl State.fullClose t).dle = (fs.foldl State.fullClose s).dle := by
  induction fs generalizing s t with
  | nil => exact ⟨hslm, hdle⟩
  | cons f fs ih =>
    obtain ⟨hslm', hdle'⟩ := State.closeSlot_congr hslm hdle f.slot (f.stop.getD f.start - f.start).toNat
      (if f.truncated then .truncated else .normal)
    exact ih hslm' hdle'

/-- Effective progress reads the ticks a lane has not finished, its offset, the run state and the stop tick. -/
theorem State.effective_congr {s t : State} {l : Fin 8} (hticks : t.unfinished l = s.unfinished l)
    (hrecord : (t.lanes.get l).record = (s.lanes.get l).record) (hrnc : t.rnc = s.rnc) (hstop : t.frt.stopTick = s.frt.stopTick) (high : Int) :
    t.effective high l = s.effective high l := by
  unfold State.effective State.progress
  rw [hticks, hrecord, hrnc, hstop]

/-- A boundary's loop switch and lane promotions move no lane's progress. -/
theorem State.boundaryBegun_passes (s : State) (kind : BoundaryKind) (start high : Int) (f : OpenFrame) :
    ((s.boundaryBegun kind).boundNewest start).passes high f = s.passes high f := by
  obtain ⟨htru, hlanes, hfrt, -, -, -, -, hrnc, -⟩ := s.boundaryBegun_frame kind
  rw [((s.boundaryBegun kind).boundNewest_gates start).passes]
  have hlane (l : Fin 8) : (s.boundaryBegun kind).lanes.get l = (s.lanes.get l).promote := by rw [hlanes, Eight.get_map]
  have hpromote (n : Lane) : n.promote.record = n.record ∧ n.promote.queue = n.queue ∧ n.promote.placements = n.placements := by
    unfold Lane.promote; split <;> exact ⟨rfl, rfl, rfl⟩
  have hgroup := (s.tru.takeBoundary_group (decide (s.frt.state = .seeking))).1
  have hticks (l : Fin 8) : (s.boundaryBegun kind).unfinished l = s.unfinished l := by
    unfold State.unfinished
    rw [hlane, (hpromote _).2.1, (hpromote _).2.2, htru]
    congr 2
    cases hg : s.tru.group with
    | none => rw [hg] at hgroup; rw [Option.map_eq_none_iff.mp hgroup]
    | some g =>
      rw [hg] at hgroup
      obtain ⟨g', hg', hsame⟩ := Option.map_eq_some_iff.mp hgroup
      simp only [Prod.mk.injEq] at hsame
      obtain ⟨htick, -, hentries, hissued⟩ := hsame
      rw [hg']
      dsimp only
      rw [htick, hentries, hissued]
  have heffective (l : Fin 8) : (s.boundaryBegun kind).effective high l = s.effective high l :=
    State.effective_congr (hticks l) (by rw [hlane, (hpromote _).1]) hrnc (by rw [hfrt]) high
  have henabled : (s.boundaryBegun kind).enabledLanes = s.enabledLanes := by
    unfold State.enabledLanes
    simp only [hlane, hpromote]
  unfold State.passes State.allReached
  rw [henabled]
  simp only [heffective]

end Sys2Proof.Machine

/-! # Boundaries: the slot a new frame is given (R69, R70, R90, R91, R92, R109, R116, R124) -/

namespace Sys2Proof.Machine

/-! ## The geometry in force (R90, R109) -/

theorem layerSide_eq_iff (x : Side) (n : Nat) : x = layerSide n ↔ (x = .top ↔ n < 4) := by
  unfold layerSide
  by_cases hn : n < 4 <;> cases x <;> simp [hn]

theorem State.enabledLanes_ordered (s : State) : s.enabledLanes.Pairwise (· < ·) :=
  List.Pairwise.filter _ (by decide)

theorem State.geometry_isGeometry (s : State) : s.isGeometry s.geometry := by
  refine ⟨rfl, rfl, rfl, rfl, List.Pairwise.filter _ List.pairwise_lt_range, fun n => ?_, ?_, fun y => ?_⟩
  · have hmem : n ∈ s.geometry.layers ↔ n < 8 ∧ (∃ l ∈ s.enabledLanes, (s.lanes.get l).record.side = layerSide n)
        ∧ s.tru.planeSet.getLsbD (layerPlane n) = true := by
      simp [State.geometry, State.layersInUse]
    rw [hmem]
    simp only [State.mem_enabledLanes, layerSide_eq_iff, layerPlane]
    exact ⟨fun ⟨h8, hl, hp⟩ => ⟨h8, hp, hl⟩, fun ⟨h8, hp, hl⟩ => ⟨h8, hl, hp⟩⟩
  · have hlanes : s.geometry.lanes.map GeoLane.lane = s.enabledLanes := by simp [State.geometry, Function.comp_def]
    rw [hlanes]; exact s.enabledLanes_ordered
  · simp only [State.geometry, List.mem_map, State.mem_enabledLanes]
    constructor
    · rintro ⟨l, hl, rfl⟩
      exact ⟨hl, rfl, rfl, rfl, rfl⟩
    · obtain ⟨lane, side, first, last, fill⟩ := y
      rintro ⟨hl, hside, hfirst, hlast, hfill⟩
      dsimp only at hl hside hfirst hlast hfill
      exact ⟨lane, hl, by rw [hside, hfirst, hlast, hfill]; rfl⟩

theorem Geometry.freshReady_counts (g : Geometry) (side : Side) :
    g.freshReady.counts side = if ∃ n ∈ g.layers, layerSide n = side then List.replicate (g.columns side) 0 else [] := by
  cases side <;> simp [Geometry.freshReady, Ready.counts]

/-! ## The records of a new frame (R124) -/

theorem foldl_setRecords_get (rs : List (Fin 8)) (hrs : rs.Nodup) (f : List Delivery → List Delivery) (s : State) (q : Fin 8) :
    (rs.foldl (fun s r => s.setRecords r f) s).dle.records.get q
      = if q ∈ rs then f (s.dle.records.get q) else s.dle.records.get q := by
  induction rs generalizing s with
  | nil => rfl
  | cons r rs ih =>
    obtain ⟨hr, hrs⟩ := List.nodup_cons.mp hrs
    rw [List.foldl_cons, ih hrs, State.setRecords_get]
    by_cases hq : q = r
    · subst hq; rw [if_neg hr, if_pos rfl, if_pos List.mem_cons_self]
    · rw [if_neg hq]
      simp only [List.mem_cons, hq, false_or]

theorem State.mem_selecting (s : State) (frame : Nat) (r : Fin 8) :
    r ∈ s.selecting frame ↔ (s.dle.routes.get r).enable = true ∧ frame % (s.dle.routes.get r).stride = (s.dle.routes.get r).phase := by
  simp [State.selecting, RouteRecord.selects, mem_indices]

theorem State.setUpSlot_records (s : State) (i frame : Nat) (start : Int) (kind : BoundaryKind) {r : Fin 8} (hr : r ∈ s.selecting frame) :
    ((s.setUpSlot i frame start kind).dle.records.get r).getLast? = some (Delivery.fresh i (s.slm.allocCounter + 1)) := by
  have hget := foldl_setRecords_get (s.selecting frame) (indices_nodup.filter _)
    (fun ds => ds ++ [Delivery.fresh i (s.slm.allocCounter + 1)])
    (State.setSlot { s with slm := { s.slm with allocCounter := s.slm.allocCounter + 1 } } i fun _ => s.newSlot frame start kind) r
  rw [if_pos hr] at hget
  exact (congrArg List.getLast? hget).trans List.getLast?_concat

theorem State.setUpSlot_slot (s : State) {i : Nat} (h : i < s.slm.slots.length) (frame : Nat) (start : Int) (kind : BoundaryKind) (j : Nat) :
    (s.setUpSlot i frame start kind).slot j = if j = i then s.newSlot frame start kind else s.slot j := by
  have hslot : (s.setUpSlot i frame start kind).slot j = (s.setSlot i fun _ => s.newSlot frame start kind).slot j := by
    unfold State.slot; rw [State.setUpSlot_slm]; rfl
  rw [hslot]
  exact State.setSlot_slot s i j _ h

/-! ## Eviction (R92) -/

theorem State.mem_numbered (s : State) (i : Nat) (x : Slot) : (i, x) ∈ s.numbered ↔ i < s.slm.slots.length ∧ x = s.slot i := by
  unfold State.numbered
  simp only [List.mem_map, Prod.mk.injEq, Prod.exists, List.mem_zipIdx_iff_getElem?]
  constructor
  · rintro ⟨y, j, hy, rfl, rfl⟩
    obtain ⟨hlt, hy⟩ := List.getElem?_eq_some_iff.mp hy
    exact ⟨hlt, by rw [s.slot_eq_getElem hlt]; exact hy.symm⟩
  · rintro ⟨hlt, rfl⟩
    exact ⟨_, i, List.getElem?_eq_some_iff.mpr ⟨hlt, (s.slot_eq_getElem hlt).symm⟩, rfl, rfl⟩

theorem State.frameOpenSending_iff (s : State) (alloc : Nat) :
    s.frameOpenSending alloc = false ↔ ∀ p r k, (s.ports.get p).tx ≠ some { source := .frameOpen r alloc, packet := k } := by
  have hport (h : HostPort) : (match h.tx with
      | some { source := .frameOpen _ a, .. } => decide (a = alloc)
      | _ => false) = false ↔ ∀ r k, h.tx ≠ some { source := .frameOpen r alloc, packet := k } := by
    rcases h.tx with _ | ⟨source, packet⟩
    · simp
    · cases source <;> simp
  have hboth : s.frameOpenSending alloc = false
      ↔ (∀ r k, s.ports.a.tx ≠ some { source := .frameOpen r alloc, packet := k })
        ∧ ∀ r k, s.ports.b.tx ≠ some { source := .frameOpen r alloc, packet := k } := by
    rw [← hport, ← hport]
    exact Bool.or_eq_false_iff
  rw [hboth]
  constructor
  · rintro ⟨ha, hb⟩ p
    cases p
    · exact ha
    · exact hb
  · intro h
    exact ⟨h .a, h .b⟩

theorem State.openedSomewhere_iff (s : State) (alloc : Nat) :
    s.openedSomewhere alloc = false ↔ ∀ r, ∀ d ∈ s.dle.records.get r, d.alloc = alloc → d.state ≠ .opened := by
  simp [State.openedSomewhere, mem_indices]

/-- A slot can be evicted as R92 says. -/
theorem State.evictable_iff (s : State) (i : Nat) : s.evictable (s.slot i) = true ↔ s.mayEvict i := by
  have hand : s.evictable (s.slot i) = true ↔ (s.slot i).state = .closed ∧ s.openedSomewhere (s.slot i).alloc = false
      ∧ s.frameOpenSending (s.slot i).alloc = false ∧ (s.slot i).retain = false ∧ (s.slot i).pendingRereads = 0 := by
    simp [State.evictable, and_assoc]
  rw [hand, State.openedSomewhere_iff, State.frameOpenSending_iff]
  exact ⟨fun ⟨h1, h2, h3, h4, h5⟩ => ⟨h1, h4, h5, h2, h3⟩, fun ⟨h1, h4, h5, h2, h3⟩ => ⟨h1, h2, h3, h4, h5⟩⟩

theorem State.mayEvict_congr {s t : State} (hslm : t.slm = s.slm) (hdle : t.dle = s.dle)
    (htx : ∀ p, (t.ports.get p).tx = (s.ports.get p).tx) (i : Nat) : t.mayEvict i ↔ s.mayEvict i := by
  have hslot : t.slot i = s.slot i := by unfold State.slot; rw [hslm]
  unfold State.mayEvict
  rw [hslot, hdle]
  simp only [htx]

/-- With no slot that can be evicted there is no victim. -/
theorem State.victim_none {s : State} (h : ∀ i, i < s.slm.slots.length → ¬ s.mayEvict i) : s.victim = none := by
  have hnil : (s.numbered.filter fun x => s.evictable x.2) = [] := by
    refine List.filter_eq_nil_iff.mpr ?_
    rintro ⟨i, x⟩ hx hev
    obtain ⟨hlt, rfl⟩ := (s.mem_numbered i x).mp hx
    exact h i hlt ((s.evictable_iff i).mp hev)
  unfold State.victim
  rw [hnil]

/-- The victim is the one of lowest allocation number. -/
theorem State.victim_some {s : State} {i : Nat} (hlt : i < s.slm.slots.length) (hi : s.mayEvict i)
    (hleast : ∀ j, j < s.slm.slots.length → s.mayEvict j → j ≠ i → (s.slot i).alloc < (s.slot j).alloc) : s.victim = some i := by
  have hmem : (i, s.slot i) ∈ s.numbered.filter fun x => s.evictable x.2 :=
    List.mem_filter.mpr ⟨(s.mem_numbered _ _).mpr ⟨hlt, rfl⟩, (s.evictable_iff i).mpr hi⟩
  unfold State.victim
  cases hc : s.numbered.filter fun x => s.evictable x.2 with
  | nil => rw [hc] at hmem; cases hmem
  | cons x xs =>
    dsimp only
    obtain ⟨hin, hmin⟩ := foldl_least (fun y : Nat × Slot => y.2.alloc) xs x
    rw [← hc] at hin hmin
    generalize xs.foldl (fun m y => if y.2.alloc < m.2.alloc then y else m) x = m at *
    obtain ⟨j, y⟩ := m
    obtain ⟨hnum, hev⟩ := List.mem_filter.mp hin
    obtain ⟨hjlt, rfl⟩ := (s.mem_numbered j y).mp hnum
    have hle := hmin _ hmem
    by_contra hne
    have hji : j ≠ i := fun h => hne (by rw [h])
    exact absurd (hleast j hjlt ((s.evictable_iff j).mp hev) hji) (Nat.not_lt.mpr hle)

end Sys2Proof.Machine

/-! # Boundaries (R68 to R71, R76) -/

namespace Sys2Proof.Machine

section Boundary

variable {s : State} {tick : Int} {kind : BoundaryKind} {k : Nat}

/-- The state as a boundary's new frame is about to be opened, and the one its close test leaves when nothing else of the boundary is
done: the same slots, records and open list (R68). -/
theorem State.boundaryClosed_spec (s : State) (tick : Int) (kind : BoundaryKind)
    (hpass : ∀ f ∈ (s.frt.boundedAt (tick + (s.frt.record.offset : Int))).take k, s.passesClose (tick - 1) f)
    (hfail : ∀ f, (s.frt.boundedAt (tick + (s.frt.record.offset : Int)))[k]? = some f → ¬ s.passesClose (tick - 1) f) :
    let v := s.boundNewest (tick + (s.frt.record.offset : Int))
    let u := v.closeTest (tick - 1)
    let c := s.boundaryClosed tick kind
    c.slm = u.slm ∧ c.dle = u.dle ∧ c.frt.openList = (s.frt.boundedAt (tick + (s.frt.record.offset : Int))).drop k
      ∧ u.frt.openList = (s.frt.boundedAt (tick + (s.frt.record.offset : Int))).drop k
      ∧ (s.framesOk → v.framesOk ∧ ListClosed OpenFrame.finished v u ((s.frt.boundedAt (tick + (s.frt.record.offset : Int))).take k)) := by
  intro v u c
  obtain ⟨-, -, hfrt, hslm, hdle, -⟩ := s.boundaryBegun_frame kind
  have hstart : tick + ((s.boundaryBegun kind).frt.record.offset : Int) = tick + (s.frt.record.offset : Int) := by rw [hfrt]
  have hv : v.frt.openList = s.frt.boundedAt (tick + (s.frt.record.offset : Int)) := s.boundNewest_openList _
  have hw : ((s.boundaryBegun kind).boundNewest (tick + (s.frt.record.offset : Int))).frt.openList
      = s.frt.boundedAt (tick + (s.frt.record.offset : Int)) := by
    rw [State.boundNewest_openList, hfrt]; rfl
  have hvpass (f : OpenFrame) : v.passes (tick - 1) f = true ↔ s.passesClose (tick - 1) f := by
    rw [(s.boundNewest_gates _).passes, State.passes_iff]
  have hwpass (f : OpenFrame) : ((s.boundaryBegun kind).boundNewest (tick + (s.frt.record.offset : Int))).passes (tick - 1) f = true
      ↔ s.passesClose (tick - 1) f := by
    rw [State.boundaryBegun_passes, State.passes_iff]
  have hslm' : ((s.boundaryBegun kind).boundNewest (tick + (s.frt.record.offset : Int))).slm = v.slm :=
    State.boundNewest_slm_congr (by rw [hfrt]) (by rw [hfrt]) hslm _
  have hdle' : ((s.boundaryBegun kind).boundNewest (tick + (s.frt.record.offset : Int))).dle = v.dle := by simp [v, hdle]
  have hveq : u = ((v.frt.openList.take k).foldl State.fullClose v).withOpenList (v.frt.openList.drop k) :=
    closePassing_eq (tick - 1) v.frt.openList k v (fun f hf => (hvpass f).mpr (hpass f (by rw [← hv]; exact hf)))
      fun f hf => fun h => hfail f (by rw [← hv]; exact hf) ((hvpass f).mp h)
  have hweq : c = ((s.frt.boundedAt (tick + (s.frt.record.offset : Int))).take k |>.foldl State.fullClose
        ((s.boundaryBegun kind).boundNewest (tick + (s.frt.record.offset : Int)))).withOpenList
      ((s.frt.boundedAt (tick + (s.frt.record.offset : Int))).drop k) := by
    have hstep := closePassing_eq (tick - 1) (s.frt.boundedAt (tick + (s.frt.record.offset : Int))) k
      ((s.boundaryBegun kind).boundNewest (tick + (s.frt.record.offset : Int)))
      (fun f hf => (hwpass f).mpr (hpass f hf)) fun f hf h => hfail f hf ((hwpass f).mp h)
    rw [← hstep, ← hw]
    rfl
  rw [hv] at hveq
  obtain ⟨hcslm, hcdle⟩ := foldl_fullClose_congr ((s.frt.boundedAt (tick + (s.frt.record.offset : Int))).take k) hslm' hdle'
  refine ⟨?_, ?_, ?_, ?_, fun hok => ?_⟩
  · rw [hweq, hveq]; exact hcslm
  · rw [hweq, hveq]; exact hcdle
  · rw [hweq]; rfl
  · rw [hveq]; rfl
  · obtain ⟨hvok, -⟩ := State.boundNewest_framesOk hok (tick + (s.frt.record.offset : Int))
    have hclosed := (State.closeTest_closes (s := v) (high := tick - 1) (k := k)
      (fun f hf => (hvpass f).mpr (hpass f (by rw [← hv]; exact hf)))
      (fun f hf => fun h => hfail f (by rw [← hv]; exact hf) ((hvpass f).mp h)) hvok).2
    rw [hv] at hclosed
    exact ⟨hvok, hclosed⟩

theorem State.boundaryClosed_frame (s : State) (tick : Int) (kind : BoundaryKind) :
    (s.boundaryClosed tick kind).tru = (s.takeBoundary tick kind).tru ∧ (s.boundaryClosed tick kind).lanes = (s.takeBoundary tick kind).lanes
      ∧ (s.boundaryClosed tick kind).layout = s.layout ∧ (s.boundaryClosed tick kind).slm.allocCounter = s.slm.allocCounter
      ∧ (s.boundaryClosed tick kind).slm.record = s.slm.record ∧ (s.boundaryClosed tick kind).dle.routes = s.dle.routes
      ∧ (∀ p, ((s.boundaryClosed tick kind).ports.get p).tx = (s.ports.get p).tx)
      ∧ ∃ n, (s.boundaryClosed tick kind).ntu.counters.frames = { s.ntu.counters.frames with truncated := n } := by
  obtain ⟨htru, hlanes, -, hslm, hdle, hlayout, -, -, hframes⟩ := s.boundaryBegun_frame kind
  have hports : (s.boundaryClosed tick kind).ports = (s.boundaryBegun kind).ports := by simp [State.boundaryClosed]
  have hntu : (s.boundaryClosed tick kind).ntu = ((s.boundaryBegun kind).boundNewest (tick + (s.frt.record.offset : Int))).ntu := by
    simp [State.boundaryClosed]
  obtain ⟨n, hn⟩ := (s.boundaryBegun kind).boundNewest_frames (tick + (s.frt.record.offset : Int))
  refine ⟨?_, ?_, ?_, ?_, ?_, ?_, fun p => ?_, n, ?_⟩
  · rw [State.takeBoundary_tru, ← htru]; simp [State.boundaryClosed]
  · rw [State.takeBoundary_lanes, ← hlanes]; simp [State.boundaryClosed]
  · rw [← hlayout]; simp [State.boundaryClosed]
  · rw [← hslm]; simp [State.boundaryClosed]
  · rw [← hslm]; simp [State.boundaryClosed]
  · rw [← hdle]; simp [State.boundaryClosed]
  · rw [hports]
    unfold State.boundaryBegun
    dsimp only
    split
    · obtain ⟨m, hm⟩ := State.raise_port (State.countPosition { s with
          tru := s.tru.takeBoundary (decide (s.frt.state = FramingState.seeking)), lanes := s.lanes.map Lane.promote,
          frt := { s.frt with counter := (s.frt.counter + 1) % 4294967296 } }
          fun c => { c with synthesisedIndex := countUp 1 c.synthesisedIndex }) .indexSynth (some s.frt.counter) none 0 p
      rw [hm]; rfl
    · rfl
  · rw [hntu, hn, hframes]

end Boundary

/-! ## The new frame (R69, R70) -/

section NewFrame

variable {c : State} {number : Nat} {start : Int} {kind : BoundaryKind}

/-- A frame that is dropped is counted by its reason and raised; all else stands. -/
theorem State.dropFrame_spec (c : State) (number : Nat) (reason : DropReason) :
    (c.dropFrame number reason).frt = c.frt ∧ (c.dropFrame number reason).slm = c.slm
      ∧ maskHas (c.dropFrame number reason).ntu.pending .frameDropped = true
      ∧ (c.dropFrame number reason).ntu.counters.frames =
        match reason with
        | .openLimit => { c.ntu.counters.frames with droppedOpenLimit := countUp 1 c.ntu.counters.frames.droppedOpenLimit }
        | .noSlot => { c.ntu.counters.frames with droppedNoSlot := countUp 1 c.ntu.counters.frames.droppedNoSlot }
        | .empty => { c.ntu.counters.frames with droppedEmpty := countUp 1 c.ntu.counters.frames.droppedEmpty } := by
  refine ⟨by simp, by simp, by simp [State.dropFrame, State.maskHas_raise], ?_⟩
  cases reason <;> simp [State.dropFrame, State.countFrames]

theorem State.openFrame_limit (h : 4 ≤ c.frt.openList.length) : c.openFrame number start kind = c.dropFrame number .openLimit := if_pos h

theorem State.openFrame_given {i : Nat} {b : State} (hroom : c.frt.openList.length < 4) (ha : c.allocate number start kind = (some i, b)) :
    c.openFrame number start kind = b.joined i number start := by
  have hlimit : ¬ Config.openLimit ≤ c.frt.openList.length := Nat.not_le.mpr hroom
  unfold State.openFrame
  rw [if_neg hlimit, ha]
  rfl

theorem State.openFrame_refused (hroom : c.frt.openList.length < 4) (ha : c.allocate number start kind = (none, c)) :
    c.openFrame number start kind = c.dropFrame number .noSlot := by
  have hlimit : ¬ Config.openLimit ≤ c.frt.openList.length := Nat.not_le.mpr hroom
  unfold State.openFrame
  rw [if_neg hlimit, ha]

theorem State.allocate_free {i : Nat} (hlt : i < c.slm.slots.length) (hi : (c.slot i).state = .free)
    (hfirst : ∀ j, j < i → (c.slot j).state ≠ .free) : c.allocate number start kind = (some i, c.setUpSlot i number start kind) := by
  have hfind : c.slm.slots.findIdx? (fun x => x.state = .free) = some i := by
    rw [List.findIdx?_eq_some_iff_getElem]
    refine ⟨hlt, by rw [← c.slot_eq_getElem hlt]; simpa using hi, fun j hj => ?_⟩
    rw [← c.slot_eq_getElem (hj.trans hlt)]
    simpa using hfirst j hj
  unfold State.allocate
  rw [hfind]

theorem State.findIdx_noFree (hnone : ∀ x ∈ c.slm.slots, x.state ≠ .free) : c.slm.slots.findIdx? (fun x => x.state = .free) = none := by
  rw [List.findIdx?_eq_none_iff]
  exact fun x hx => by simpa using hnone x hx

theorem State.allocate_refused (hnone : ∀ x ∈ c.slm.slots, x.state ≠ .free)
    (h : c.slm.record.policy = .dropNew ∨ ∀ i, i < c.slm.slots.length → ¬ c.mayEvict i) : c.allocate number start kind = (none, c) := by
  unfold State.allocate
  rw [State.findIdx_noFree hnone]
  dsimp only
  cases hp : c.slm.record.policy with
  | dropNew => rfl
  | dropOldest =>
    rcases h with h | h
    · exact absurd (hp.symm.trans h) nofun
    · rw [State.victim_none h]

theorem State.allocate_evicts {i : Nat} (hnone : ∀ x ∈ c.slm.slots, x.state ≠ .free) (hp : c.slm.record.policy = .dropOldest)
    (hlt : i < c.slm.slots.length) (hi : c.mayEvict i)
    (hleast : ∀ j, j < c.slm.slots.length → c.mayEvict j → j ≠ i → (c.slot i).alloc < (c.slot j).alloc) :
    c.allocate number start kind = (some i, (c.evict i).setUpSlot i number start kind) := by
  unfold State.allocate
  rw [State.findIdx_noFree hnone, hp]
  dsimp only
  rw [State.victim_some hlt hi hleast]

/-- What a boundary and the opening of its frame make of the slot, the open list and the counters, from the state that gives the slot. -/
theorem State.joined_spec (b : State) {i : Nat} (hlt : i < b.slm.slots.length) (number : Nat) (start : Int) (kind : BoundaryKind) :
    let t := (b.setUpSlot i number start kind).joined i number start
    t.frt.openList = b.frt.openList ++ [{ number := number, slot := i, start := start, stop := none, truncated := false }]
      ∧ t.slm.allocCounter = b.slm.allocCounter + 1
      ∧ t.ntu.counters.frames = { b.ntu.counters.frames with opened := countUp 1 b.ntu.counters.frames.opened }
      ∧ t.slot i = b.newSlot number start kind ∧ (∀ j, j ≠ i → t.slot j = b.slot j)
      ∧ (∀ r ∈ b.selecting number, (t.dle.records.get r).getLast? = some (Delivery.fresh i (b.slm.allocCounter + 1)))
      ∧ t.tru = b.tru ∧ t.lanes = b.lanes ∧ t.layout = b.layout ∧ t.ntu.pending = b.ntu.pending := by
  dsimp only
  have hsame := b.setUpSlot_frame i number start kind
  obtain ⟨-, -, -, -, htru, hlanes, hfrt, -, -, hlayout, -, -, -, -, -, hntu⟩ := hsame
  refine ⟨?_, ?_, ?_, ?_, fun j hj => ?_, fun r hr => ?_, htru, hlanes, hlayout, by rw [← hntu]; rfl⟩
  · rw [← hfrt]; rfl
  · exact congrArg Slm.allocCounter (b.setUpSlot_slm i number start kind)
  · rw [← hntu]; rfl
  · exact (b.setUpSlot_slot hlt number start kind i).trans (if_pos rfl)
  · exact (b.setUpSlot_slot hlt number start kind j).trans (if_neg hj)
  · exact b.setUpSlot_records i number start kind hr

end NewFrame

/-- Settles O39: the boundary's close test finds what it would find without the rest of the boundary, and then the frame is opened. -/
theorem boundariesOpenTheNextFrame : Obligations.BoundariesOpenTheNextFrame := by
  intro s tick kind t start v u selected
  have hrest := s.takeBoundary_rest tick kind
  simp only [Frt.rest, Frt.mk.injEq] at hrest
  obtain ⟨hrecord, hstate, hlast, hcounter, -, hcapacity, hhold, -⟩ := hrest
  have htru := s.takeBoundary_tru tick kind
  have hlanes := s.takeBoundary_lanes tick kind
  obtain ⟨hloop, hstaged, -, -⟩ := s.tru.takeBoundary_loop (decide (s.frt.state = .seeking))
  refine ⟨hcounter, hlast, hstate, hrecord, hcapacity, hhold, by simp [t], by simp [t], by simp [t], by simp [t], fun l => ?_,
    by rw [htru]; exact hloop, by rw [htru]; exact hstaged, fun h => ?_, fun hno htracking => ?_, fun k hpass hfail => ?_⟩
  · rw [hlanes, Eight.get_map]
    unfold Lane.promote
    split <;> rfl
  · rw [htru]
    exact s.tru.takeBoundary_restarts (by simpa using h)
  · rw [htru, htracking]
    exact s.tru.takeBoundary_same hno
  intro left dropped opened noneFree
  obtain ⟨hcslm, hcdle, hclist, hulist, hframes⟩ := s.boundaryClosed_spec tick kind hpass hfail
  obtain ⟨hctru, hclanes, hclayout, hccounter, hcpolicy, hcroutes, hctx, n, hcframes⟩ := s.boundaryClosed_frame tick kind
  have ht : t = ((s.boundaryClosed tick kind).openFrame s.frt.counter start kind).tracking tick := s.takeBoundary_eq tick kind
  have htruEq : t.tru = (s.boundaryClosed tick kind).tru := hctru.symm
  have hlanesEq : t.lanes = (s.boundaryClosed tick kind).lanes := hclanes.symm
  have hlayoutEq : t.layout = (s.boundaryClosed tick kind).layout := (show t.layout = s.layout by simp [t]).trans hclayout.symm
  clear_value t
  have hslot (i : Nat) : (s.boundaryClosed tick kind).slot i = u.slot i := by unfold State.slot; rw [hcslm]
  have hlength : (s.boundaryClosed tick kind).slm.slots = u.slm.slots := by rw [hcslm]
  have hmay (i : Nat) : (s.boundaryClosed tick kind).mayEvict i ↔ u.mayEvict i :=
    State.mayEvict_congr hcslm hcdle (fun p => by rw [hctx]; simp) i
  generalize hc : s.boundaryClosed tick kind = c at *
  have hdropped (reason : DropReason) (hstep : c.openFrame s.frt.counter start kind = c.dropFrame s.frt.counter reason) :
      t.frt.openList = left ∧ t.slm = u.slm ∧ maskHas t.ntu.pending .frameDropped = true
        ∧ t.ntu.counters.frames = (c.dropFrame s.frt.counter reason).ntu.counters.frames := by
    obtain ⟨hfrt, hslm, hmask, -⟩ := c.dropFrame_spec s.frt.counter reason
    rw [ht, hstep]
    exact ⟨(congrArg Frt.openList hfrt).trans hclist, hslm.trans hcslm, hmask, rfl⟩
  have hopened (i : Nat) (b : State) (hlt : i < c.slm.slots.length)
      (hstep : c.openFrame s.frt.counter start kind = (b.setUpSlot i s.frt.counter start kind).joined i s.frt.counter start)
      (hb : b.slm = c.slm ∧ b.frt = c.frt ∧ b.tru = c.tru ∧ b.lanes = c.lanes ∧ b.layout = c.layout ∧ b.dle.routes = c.dle.routes)
      (m : Nat) (hcounts : b.ntu.counters.frames = { s.ntu.counters.frames with truncated := n, evicted := m }) :
      opened i ∧ t.ntu.counters.frames.evicted = m ∧ t.ntu.pending = b.ntu.pending := by
    obtain ⟨hbslm, hbfrt, hbtru, hblanes, hblayout, hbroutes⟩ := hb
    obtain ⟨hlist, halloc, hcount, hgiven, hothers, hrecords, htru', hlanes', hlayout', hpending⟩ :=
      b.joined_spec (by rw [hbslm]; exact hlt) s.frt.counter start kind
    have hlistT : t.frt.openList = b.frt.openList
        ++ [{ number := s.frt.counter, slot := i, start := start, stop := none, truncated := false }] := by rw [ht, hstep]; exact hlist
    have hallocT : t.slm.allocCounter = b.slm.allocCounter + 1 := by rw [ht, hstep]; exact halloc
    have hcountT : t.ntu.counters.frames = { b.ntu.counters.frames with opened := countUp 1 b.ntu.counters.frames.opened } := by
      rw [ht, hstep]; exact hcount
    have hgivenT : t.slot i = b.newSlot s.frt.counter start kind := by rw [ht, hstep]; exact hgiven
    have hothersT (j : Nat) (hj : j ≠ i) : t.slot j = b.slot j := by rw [ht, hstep]; exact hothers j hj
    have hrecordsT (r : Fin 8) (hr : r ∈ b.selecting s.frt.counter) :
        (t.dle.records.get r).getLast? = some (Delivery.fresh i (b.slm.allocCounter + 1)) := by rw [ht, hstep]; exact hrecords r hr
    have hpendingT : t.ntu.pending = b.ntu.pending := by rw [ht, hstep]; exact hpending
    have hselected (r : Fin 8) : r ∈ b.selecting s.frt.counter ↔ selected r := by
      rw [State.mem_selecting, hbroutes, hcroutes]
    have hgeometry : t.isGeometry b.geometry := by
      have hself := b.geometry_isGeometry
      rw [State.isGeometry, hbtru, hblanes, hblayout, ← htruEq, ← hlanesEq, ← hlayoutEq] at hself
      exact hself
    rw [hbslm] at hallocT hrecordsT
    refine ⟨⟨?_, hallocT.trans (congrArg (· + 1) hccounter), ?_, ?_, ?_, ?_, ?_, ?_, ?_, fun j hj => ?_, fun r => ?_, fun r hr => ?_⟩, ?_, hpendingT⟩
    · rw [hlistT, hbfrt, hclist]
    · rw [hcountT, hcounts]; rfl
    · rw [hcountT, hcounts]
    · rw [hcountT, hcounts]
    · rw [hgivenT, hallocT, State.newSlot, hbslm, hbtru, ← htruEq]; rfl
    · rw [hgivenT]; exact hgeometry
    · rw [hgivenT]; rfl
    · intro side
      rw [hgivenT]
      exact Geometry.freshReady_counts _ side
    · rw [hothersT j hj, ← hslot]
      unfold State.slot
      rw [hbslm]
    · rw [hgivenT]; exact hselected r
    · rw [hrecordsT r ((hselected r).mpr hr), hallocT]; rfl
    · rw [hcountT, hcounts]
  have hplain : c.ntu.counters.frames = { s.ntu.counters.frames with truncated := n, evicted := s.ntu.counters.frames.evicted } := hcframes
  refine ⟨hulist, fun hok => ⟨?_, ?_, ?_⟩, fun hfull => ?_, fun i hroom hlt hfree hfirst => ?_, fun hroom hnone hno => ?_,
    fun i hroom hnone hpolicy hlt hi hleast => ?_⟩
  · exact (State.boundNewest_framesOk hok start).2
  · intro f hf e he
    obtain ⟨-, hclosed⟩ := hframes hok
    rw [hclosed.listed f hf, OpenFrame.finished, he]
    rfl
  · exact (hframes hok).2.onlyCloses ⟨fun _ => rfl, fun _ => rfl⟩
  · obtain ⟨hlist, hslm, hmask, hcounts⟩ := hdropped .openLimit (State.openFrame_limit (by rw [hclist]; exact hfull))
    rw [(c.dropFrame_spec s.frt.counter .openLimit).2.2.2, hcframes] at hcounts
    refine ⟨⟨hlist, hslm, ?_, ?_, ?_, hmask⟩, ?_, ?_⟩
    · rw [hslm, ← hcslm]; exact hccounter
    · rw [hcounts]
    · rw [hcounts]
    · rw [hcounts]; rfl
    · rw [hcounts]
  · have hgiven := State.openFrame_given (c := c) (number := s.frt.counter) (start := start) (kind := kind) (by rw [hclist]; exact hroom)
      (State.allocate_free (by rw [hlength]; exact hlt) (by rw [hslot]; exact hfree) fun j hj => by rw [hslot]; exact hfirst j hj)
    obtain ⟨hopen, hevicted, -⟩ := hopened i c (by rw [hlength]; exact hlt) hgiven ⟨rfl, rfl, rfl, rfl, rfl, rfl⟩ _ hplain
    exact ⟨hopen, hevicted⟩
  · have hrefused := State.openFrame_refused (c := c) (number := s.frt.counter) (start := start) (kind := kind) (by rw [hclist]; exact hroom)
      (State.allocate_refused (by rw [hlength]; exact hnone) (by rw [hcpolicy, hlength]; simpa only [hmay] using hno))
    obtain ⟨hlist, hslm, hmask, hcounts⟩ := hdropped .noSlot hrefused
    rw [(c.dropFrame_spec s.frt.counter .noSlot).2.2.2, hcframes] at hcounts
    refine ⟨⟨hlist, hslm, ?_, ?_, ?_, hmask⟩, ?_, ?_⟩
    · rw [hslm, ← hcslm]; exact hccounter
    · rw [hcounts]
    · rw [hcounts]
    · rw [hcounts]
    · rw [hcounts]; rfl
  · have hgiven := State.openFrame_given (c := c) (number := s.frt.counter) (start := start) (kind := kind) (by rw [hclist]; exact hroom)
      (State.allocate_evicts (by rw [hlength]; exact hnone) (by rw [hcpolicy]; exact hpolicy) (by rw [hlength]; exact hlt) ((hmay i).mpr hi)
        fun j hj hev hne => by rw [hslot, hslot]; exact hleast j (by rw [← hlength]; exact hj) ((hmay j).mp hev) hne)
    have hevict := c.evict_frame i
    have hcounts : (c.evict i).ntu.counters.frames
        = { s.ntu.counters.frames with truncated := n, evicted := countUp 1 s.ntu.counters.frames.evicted } := by
      have hcount : (c.evict i).ntu.counters.frames = { c.ntu.counters.frames with evicted := countUp 1 c.ntu.counters.frames.evicted } := by
        simp [State.evict, State.countFrames, State.dropRecords]
      rw [hcount, hcframes]
    obtain ⟨hopen, hevicted, hpending⟩ := hopened i (c.evict i) (by rw [hlength]; exact hlt) hgiven (by simp) _ hcounts
    refine ⟨hopen, hevicted, ?_⟩
    rw [hpending]
    simp [State.evict, State.maskHas_raise]

end Sys2Proof.Machine

/-! # Completed placements (R56, R87, R100, R101, R110, R111) -/

namespace Sys2Proof.Machine

section Finish

variable {s : State} {l : Fin 8} {y : Placement} {ys : List Placement}

theorem exec_placementComplete (hs : s.pwrOk = true) (hy : (s.lanes.get l).placements = y :: ys) (hin : s.placementOutside l y = false) :
    exec (.placementComplete l) s = .next (((s.finishPlacement l y ys).progressed).settleFrom s) := by
  have harm : exec (.placementComplete l) s = execPlacementComplete l s := rfl
  have hfault : ¬ (s.pwrOk && s.placementOutside l y) = true := by rw [hin]; simp
  rw [harm, execPlacementComplete, hy]
  exact (if_neg hfault).trans (State.whenPowered_high _ _ hs)

/-- The first placement of a lane taken out of it. -/
def State.placementTaken (s : State) (l : Fin 8) (ys : List Placement) : State := s.setLane l fun n => { n with placements := ys }

/-- A line written and resolved, if its slot still holds the frame it was placed in (R101, R111). -/
def State.lineStored (s : State) (l : Fin 8) (y : Placement) : State :=
  match y.place with
  | some pl => if s.stillHolds pl then (s.writeLine l y.plane pl y.pixels).resolve l y.plane y.position .written else s
  | none => s

theorem State.finishPlacement_eq (s : State) (l : Fin 8) (y : Placement) (ys : List Placement) :
    s.finishPlacement l y ys = (((s.placementTaken l ys).lineStored l y).countLane l
      fun c => { c with linesWritten := countUp 1 c.linesWritten }).dropOrphans l ys := rfl

theorem State.lineStored_frame (s : State) (l : Fin 8) (y : Placement) :
    (s.lineStored l y).lanes = s.lanes ∧ (s.lineStored l y).ntu.counters.lanes = s.ntu.counters.lanes := by
  unfold State.lineStored
  split
  · split
    · simp
    · simp
  · simp

theorem State.lineStored_placed {pl : Place} (hpl : y.place = some pl) (hold : s.stillHolds pl = true) :
    s.lineStored l y = (s.writeLine l y.plane pl y.pixels).resolve l y.plane y.position .written := by
  unfold State.lineStored
  rw [hpl]
  exact if_pos hold

theorem State.lineStored_unplaced (h : y.place = none ∨ ∃ pl, y.place = some pl ∧ s.stillHolds pl = false) : s.lineStored l y = s := by
  unfold State.lineStored
  rcases h with h | ⟨pl, h, hold⟩ <;> rw [h]
  exact if_neg (by rw [hold]; exact nofun)

/-- The slot table and the store after a completed placement are those after its line is stored. -/
theorem State.finishPlacement_slm (s : State) (l : Fin 8) (y : Placement) (ys : List Placement) :
    (s.finishPlacement l y ys).slm = ((s.placementTaken l ys).lineStored l y).slm := by
  rw [State.finishPlacement_eq, (State.dropOrphans_frame _ _ _).2.2.2.2.2.2.1]; simp

theorem State.placementTaken_same (s : State) (l : Fin 8) (ys : List Placement) :
    (∀ pl, (s.placementTaken l ys).stillHolds pl = s.stillHolds pl)
      ∧ (∀ k pl, (s.placementTaken l ys).lineAddress l k pl = s.lineAddress l k pl)
      ∧ ((s.placementTaken l ys).lanes.get l).record = (s.lanes.get l).record ∧ (s.placementTaken l ys).slm = s.slm := by
  have hrecord : ((s.placementTaken l ys).lanes.get l).record = (s.lanes.get l).record := by simp [State.placementTaken]
  refine ⟨fun _ => rfl, fun k pl => ?_, hrecord, rfl⟩
  unfold State.lineAddress
  rw [hrecord]
  rfl

end Finish

/-- Settles O45: the first placement's line is stored, and the placements behind it that no frame keeps go with it. -/
theorem placementsWriteTheirRow : Obligations.PlacementsWriteTheirRow := by
  intro l s y ys hs hy hin
  refine ⟨_, exec_placementComplete hs hy hin, ?_⟩
  obtain ⟨hholds, haddress, hrecord, hslm⟩ := s.placementTaken_same l ys
  obtain ⟨hlanes, hcounters⟩ := (s.placementTaken l ys).lineStored_frame l y
  obtain ⟨k, n, hend, hcountersEnd, -, -, hcount⟩ := (((s.placementTaken l ys).lineStored l y).countLane l
    fun c => { c with linesWritten := countUp 1 c.linesWritten }).dropOrphans_spec l ys
  rw [← State.finishPlacement_eq] at hend hcountersEnd
  have hone : ((((s.placementTaken l ys).lineStored l y).countLane l
      fun c => { c with linesWritten := countUp 1 c.linesWritten }).ntu.counters.lanes.get l).linesWritten
      = min 4294967295 ((s.ntu.counters.lanes.get l).linesWritten + 1) := by
    have htaken : (s.placementTaken l ys).ntu = s.ntu := rfl
    simp [State.countLane, hcounters, htaken, countUp_one]
  rw [hone] at hcount
  have hlanesEnd : (s.finishPlacement l y ys).lanes = s.lanes.set l { s.lanes.get l with placements := ys.drop k } := by
    rw [hend, (State.countLane_frame _ _ _).2.2.2.2.2.1, hlanes]
    simp [State.placementTaken, State.setLane]
  have hend' : ((s.finishPlacement l y ys).progressed.settleFrom s).lanes = (s.finishPlacement l y ys).lanes
      ∧ ((s.finishPlacement l y ys).progressed.settleFrom s).ntu = (s.finishPlacement l y ys).ntu
      ∧ ((s.finishPlacement l y ys).progressed.settleFrom s).slm.store = ((s.placementTaken l ys).lineStored l y).slm.store := by
    rw [← s.finishPlacement_slm]; simp
  obtain ⟨hlanesT, hntuT, hstoreT⟩ := hend'
  rw [hlanesT, hntuT, hstoreT, hlanesEnd, Eight.get_set_self]
  refine ⟨List.drop_suffix k ys, rfl, fun m hm => Eight.get_set_ne _ _ hm, fun hroom => ?_, fun pl hpl hold a => ?_, fun hno => ?_,
    fun pl i hpl hold hi hfree hlive => ?_, ?_⟩
  · rw [hcountersEnd, Eight.get_set_self, hy, List.length_cons]
    rw [hy, List.length_cons] at hroom
    dsimp only
    omega
  · rw [State.lineStored_placed hpl ((hholds pl).trans hold)]
    have hstore : ((((s.placementTaken l ys).writeLine l y.plane pl y.pixels).resolve l y.plane y.position .written).slm.store)
        = s.slm.store.write (s.lineAddress l y.plane pl) ((s.lanes.get l).record.kept y.pixels) := by
      rw [(State.resolve_frame _ _ _ _ _).2.2.2.2.2.2.2.2.2.1, State.writeLine, haddress, hrecord]
      rfl
    rw [hstore]
    refine ⟨fun i b hb ha => ?_, fun hout => Memory.read_write_outside _ _ _ _ hout⟩
    obtain ⟨hlt, hget⟩ := List.getElem?_eq_some_iff.mp hb
    rw [ha, Memory.read_write_inside _ _ _ _ hlt, hget]
  · rw [State.lineStored_unplaced]
    · rw [hslm]
    · rcases hno with hno | ⟨pl, hpl, hold⟩
      · exact .inl hno
      · exact .inr ⟨pl, hpl, (hholds pl).trans hold⟩
  · have hlater := State.tested_later (s.finishPlacement l y ys) s i
    rcases hlater.live with hx | ⟨hmarks, -⟩
    · exact absurd (by rw [hx]; rfl) hlive
    · rw [Slot.markOf_congr hmarks]
      have hslot : (s.finishPlacement l y ys).slot i
          = (((s.placementTaken l ys).writeLine l y.plane pl y.pixels).resolve l y.plane y.position .written).slot i := by
        unfold State.slot
        rw [s.finishPlacement_slm, State.lineStored_placed hpl ((hholds pl).trans hold)]
      rw [hslot, State.resolve_slot]
      have hhit : ((s.placementTaken l ys).writeLine l y.plane pl y.pixels).keeper y.position = some i
          ∧ (((s.placementTaken l ys).writeLine l y.plane pl y.pixels).slot i).markOf l y.plane
            (y.position - (((s.placementTaken l ys).writeLine l y.plane pl y.pixels).slot i).start).toNat = .unresolved := ⟨hi, hfree⟩
      rw [if_pos hhit]
      exact (Slot.resolved_markOf _ _ _ _ _ _ _ _).trans (if_pos ⟨rfl, rfl, rfl⟩)
  · simp

end Sys2Proof.Machine

/-! # Reads and the payload of a TILE packet (R103, R113, R133, R134, 12.4) -/

namespace Sys2Proof.Machine

/-! ## Hold substitution (R103) -/

section Held

variable {x : Slot} {l : Fin 8} {k : Fin 4}

theorem Slot.heldRow_some {row held : Nat} (hlt : held < row) (hw : x.markOf l k held = .written)
    (hno : ∀ r, held < r → r < row → x.markOf l k r ≠ .written) : x.heldRow l k row = some held := by
  induction row with
  | zero => exact absurd hlt (Nat.not_lt_zero _)
  | succ row ih =>
    unfold Slot.heldRow
    rcases Nat.lt_succ_iff_lt_or_eq.mp hlt with hlt | rfl
    · rw [if_neg (hno row hlt (Nat.lt_succ_self _))]
      exact ih hlt fun r hr hr' => hno r hr (Nat.lt_succ_of_lt hr')
    · rw [if_pos hw]

theorem Slot.heldRow_none {row : Nat} (hno : ∀ r, r < row → x.markOf l k r ≠ .written) : x.heldRow l k row = none := by
  induction row with
  | zero => rfl
  | succ row ih =>
    unfold Slot.heldRow
    rw [if_neg (hno row (Nat.lt_succ_self _))]
    exact ih fun r hr => hno r (Nat.lt_succ_of_lt hr)

end Held

/-- The byte a lane's column has from the source of its row (R103). -/
def State.sourced (s : State) (slot : Nat) (x : Slot) (layer : Nat) (y : GeoLane) (row col : Nat) : RowSource → Byte
  | .stored r => s.slm.store.read (s.rowAddress slot x.geometry r layer + col)
  | .fillValue => y.fill
  | .unresolved => Config.unresolvedByte (s.rowAddress slot x.geometry row layer + col)

theorem Geometry.mem_lanesOn {g : Geometry} {side : Side} {y : GeoLane} : y ∈ g.lanesOn side ↔ y ∈ g.lanes ∧ y.side = side := by
  simp [Geometry.lanesOn]

section Column

variable {s : State} {i layer row col : Nat} {x : Slot}

theorem State.readColumn_gap (h : ∀ y ∈ x.geometry.lanes, y.side = layerSide layer → ¬ (y.first ≤ col ∧ col ≤ y.last)) :
    s.readColumn i x layer row col = 0 := by
  unfold State.readColumn
  rw [List.find?_eq_none.mpr]
  intro y hy
  obtain ⟨hin, hside⟩ := Geometry.mem_lanesOn.mp hy
  simpa using h y hin hside

/-- The one lane that covers a column gives it. -/
theorem State.readColumn_covered {y : GeoLane} (hy : y ∈ x.geometry.lanes) (hside : y.side = layerSide layer) (hfirst : y.first ≤ col)
    (hlast : col ≤ y.last)
    (hone : ∀ z ∈ x.geometry.lanes, z.side = layerSide layer → z.first ≤ col → col ≤ z.last → z = y) :
    s.readColumn i x layer row col = s.sourced i x layer y row col (x.rowSource y.lane (planeOfLayer layer) row) := by
  have hfind : ((x.geometry.lanesOn (layerSide layer)).find? fun y => decide (y.first ≤ col ∧ col ≤ y.last)) = some y := by
    cases hz : (x.geometry.lanesOn (layerSide layer)).find? fun y => decide (y.first ≤ col ∧ col ≤ y.last) with
    | none =>
      have := List.find?_eq_none.mp hz y (Geometry.mem_lanesOn.mpr ⟨hy, hside⟩)
      exact absurd (decide_eq_true ⟨hfirst, hlast⟩) this
    | some z =>
      obtain ⟨hin, hzside⟩ := Geometry.mem_lanesOn.mp (List.mem_of_find?_eq_some hz)
      have hcovers := List.find?_some hz
      obtain ⟨hzfirst, hzlast⟩ := of_decide_eq_true hcovers
      rw [hone z hin hzside hzfirst hzlast]
  unfold State.readColumn
  rw [hfind]
  rfl

end Column

/-! ## The flags of a segment (R113, R134) -/

theorem Slot.fillPresent_iff (x : Slot) (layer col firstRow rows : Nat) :
    x.fillPresent layer col firstRow rows = true ↔
      ∃ n y, n < rows ∧ y ∈ x.geometry.lanes ∧ y.side = layerSide layer
        ∧ y.first ≤ x.geometry.columnStop (layerSide layer) col - 1 ∧ x.geometry.columnStart col ≤ y.last
        ∧ x.markOf y.lane (planeOfLayer layer) (firstRow + n) = .filled := by
  unfold Slot.fillPresent
  simp only [List.any_eq_true, List.mem_range, List.mem_filter, Geometry.mem_lanesOn, rangesMeet, decide_eq_true_eq, Bool.decide_and,
    Bool.and_eq_true]
  constructor
  · rintro ⟨n, hn, y, ⟨⟨hy, hside⟩, hfirst, hlast⟩, hmark⟩
    exact ⟨n, y, hn, hy, hside, hfirst, hlast, hmark⟩
  · rintro ⟨n, y, hn, hy, hside, hfirst, hlast, hmark⟩
    exact ⟨n, hn, y, ⟨⟨hy, hside⟩, hfirst, hlast⟩, hmark⟩

theorem Geometry.gapPresent_iff (g : Geometry) (side : Side) (col : Nat) :
    g.gapPresent side col = true ↔
      ∃ c, g.columnStart col ≤ c ∧ c < g.columnStop side col ∧ ∀ y ∈ g.lanes, y.side = side → ¬ (y.first ≤ c ∧ c ≤ y.last) := by
  have hcover (c : Nat) : (!((g.lanesOn side).any fun y => decide (y.first ≤ c ∧ c ≤ y.last))) = true
      ↔ ∀ y ∈ g.lanes, y.side = side → ¬ (y.first ≤ c ∧ c ≤ y.last) := by
    rw [Bool.not_eq_true', List.any_eq_false]
    constructor
    · intro h y hy hside
      simpa using h y (Geometry.mem_lanesOn.mpr ⟨hy, hside⟩)
    · intro h y hy
      obtain ⟨hin, hside⟩ := Geometry.mem_lanesOn.mp hy
      simpa using h y hin hside
  unfold Geometry.gapPresent
  simp only [List.any_eq_true, List.mem_range, hcover]
  constructor
  · rintro ⟨n, hn, hgap⟩
    exact ⟨g.columnStart col + n, Nat.le_add_right _ _, by omega, hgap⟩
  · rintro ⟨c, hstart, hstop, hgap⟩
    refine ⟨c - g.columnStart col, by omega, ?_⟩
    rw [Nat.add_sub_cancel' hstart]
    exact hgap

/-! ## The payload (12.4) -/

/-- Rows of one length, one after another, read by row and place. -/
theorem flatMap_getElem? {α β : Type} (f : α → List β) {w : Nat} (xs : List α) (hw : ∀ x ∈ xs, (f x).length = w) {n c : Nat} {x : α}
    (hx : xs[n]? = some x) (hc : c < w) : (xs.flatMap f)[n * w + c]? = (f x)[c]? := by
  induction xs generalizing n with
  | nil => cases hx
  | cons y ys ih =>
    have hy := hw y List.mem_cons_self
    rw [List.flatMap_cons]
    cases n with
    | zero =>
      cases Option.some.inj hx
      rw [List.getElem?_append_left (by omega)]
      congr 1; omega
    | succ n =>
      have hplace : (n + 1) * w + c = w + (n * w + c) := by rw [Nat.succ_mul]; omega
      rw [hplace, List.getElem?_append_right (by omega), hy, Nat.add_sub_cancel_left]
      exact ih (fun z hz => hw z (List.mem_cons_of_mem _ hz)) hx

theorem flatMap_length {α β : Type} (f : α → List β) {w : Nat} (xs : List α) (hw : ∀ x ∈ xs, (f x).length = w) :
    (xs.flatMap f).length = xs.length * w := by
  induction xs with
  | nil => simp
  | cons y ys ih =>
    rw [List.flatMap_cons, List.length_append, hw y List.mem_cons_self, ih fun z hz => hw z (List.mem_cons_of_mem _ hz), List.length_cons,
      Nat.succ_mul, Nat.add_comm]

theorem readRow_length (s : State) (slot : Nat) (x : Slot) (layer row first stop : Nat) :
    (s.readRow slot x layer row first stop).length = stop - first := by simp [State.readRow]

theorem flags_spec (a b c d : Bool) :
    (BitVec.ofNat 8 (bits [a, b, c, d])).toNat < 16 ∧ (BitVec.ofNat 8 (bits [a, b, c, d])).toNat.testBit 0 = a
      ∧ (BitVec.ofNat 8 (bits [a, b, c, d])).toNat.testBit 1 = b ∧ (BitVec.ofNat 8 (bits [a, b, c, d])).toNat.testBit 2 = c
      ∧ (BitVec.ofNat 8 (bits [a, b, c, d])).toNat.testBit 3 = d := by
  revert a b c d; decide

/-- The header of a segment: its fields, its flags and a zero. -/
theorem segmentHeader_spec (frame layer col band firstRow rows width : Nat) (last fill gap reread : Bool) (rest : List Byte) :
    let bs := segmentHeader frame layer col band firstRow rows width last fill gap reread ++ rest
    bs.length = 16 + rest.length
      ∧ bytesAt bs 0 14 = le 4 frame ++ le 1 layer ++ le 1 col ++ le 2 band ++ le 2 firstRow ++ le 2 rows ++ le 2 width
      ∧ byteAt bs 14 < 16 ∧ (byteAt bs 14).testBit 0 = last ∧ (byteAt bs 14).testBit 1 = fill ∧ (byteAt bs 14).testBit 2 = gap
      ∧ (byteAt bs 14).testBit 3 = reread ∧ byteAt bs 15 = 0 ∧ ∀ n, bs[16 + n]? = rest[n]? := by
  dsimp only
  have hlength : (segmentHeader frame layer col band firstRow rows width last fill gap reread).length = 16 := rfl
  have hflags : byteAt (segmentHeader frame layer col band firstRow rows width last fill gap reread ++ rest) 14
      = (BitVec.ofNat 8 (bits [last, fill, gap, reread])).toNat := rfl
  rw [hflags]
  obtain ⟨hlt, h0, h1, h2, h3⟩ := flags_spec last fill gap reread
  refine ⟨by rw [List.length_append, hlength], rfl, hlt, h0, h1, h2, h3, rfl, fun n => ?_⟩
  rw [List.getElem?_append_right (by omega), hlength, Nat.add_sub_cancel_left]

/-- Settles O46: a column has one source, and a segment is its header and its rows. -/
theorem readsSubstituteFilledRows : Obligations.ReadsSubstituteFilledRows := by
  refine ⟨fun s i layer row col x => ⟨State.readColumn_gap, fun y hy hside hfirst hlast hone => ?_⟩,
    fun s i layer col band firstRow rows last reread => ?_⟩
  · rw [State.readColumn_covered hy hside hfirst hlast hone]
    refine ⟨fun hw => ?_, fun held hf hlt hw hno => ?_, fun hf hno => ?_⟩
    · rw [Slot.rowSource, hw]; rfl
    · simp only [Slot.rowSource, hf, Slot.heldRow_some hlt hw hno]; rfl
    · simp only [Slot.rowSource, hf, Slot.heldRow_none hno]; rfl
  · intro x first stop bytes
    have hrows : ∀ n ∈ List.range rows, (s.readRow i x layer (firstRow + n) first stop).length = stop - first :=
      fun n _ => readRow_length _ _ _ _ _ _ _
    have hbytes : bytes = segmentHeader x.frame layer col band firstRow rows (stop - first) last (x.fillPresent layer col firstRow rows)
        (x.geometry.gapPresent (layerSide layer) col) reread
        ++ (List.range rows).flatMap fun n => s.readRow i x layer (firstRow + n) first stop := rfl
    obtain ⟨hlength, hfields, hlt, hlast, hfill, hgap, hreread, hzero, hrest⟩ := segmentHeader_spec x.frame layer col band firstRow rows
      (stop - first) last (x.fillPresent layer col firstRow rows) (x.geometry.gapPresent (layerSide layer) col) reread
      ((List.range rows).flatMap fun n => s.readRow i x layer (firstRow + n) first stop)
    rw [← hbytes] at hlength hfields hlt hlast hfill hgap hreread hzero hrest
    refine ⟨?_, hfields, hlt, hlast, hreread, hzero, ?_, ?_, fun n c hn hc => ?_⟩
    · rw [hlength, flatMap_length _ _ hrows, List.length_range]
    · rw [hfill]; exact x.fillPresent_iff layer col firstRow rows
    · rw [hgap]; exact x.geometry.gapPresent_iff (layerSide layer) col
    · rw [Nat.add_assoc, hrest, flatMap_getElem? _ _ hrows (List.getElem?_range hn) hc, State.readRow, List.getElem?_map,
        List.getElem?_range hc]
      rfl

end Sys2Proof.Machine

/-! # RUN_START (R23, R43, R63, R85, R106, R171 to R173) -/

namespace Sys2Proof.Machine

/-! ## The five consistency checks -/

theorem rangesMeet_false_iff (a b c d : Nat) : rangesMeet a b c d = false ↔ b < c ∨ d < a := by
  simp only [rangesMeet, decide_eq_false_iff_not, not_and_or, not_le]
  exact or_comm

theorem LayoutRecord.holdsPlanes_iff (y : LayoutRecord) (planes : BitVec 4) :
    y.holdsPlanes planes = true ↔ ∀ k : Fin 4, planes.getLsbD k.val = true → y.planes.getLsbD k.val = true := by
  rw [LayoutRecord.holdsPlanes, decide_eq_true_eq]
  refine ⟨fun h k hk => ?_, fun h => BitVec.eq_of_getLsbD_eq fun i hi => ?_⟩
  · have hbit := congrArg (fun m : BitVec 4 => m.getLsbD k.val) h
    simpa [hk] using hbit
  · cases hk : planes.getLsbD i
    · simp [hk]
    · simp [hk, hi, h ⟨i, hi⟩ hk]

theorem State.rangesOk_iff (s : State) : s.rangesOk = true ↔
    (∀ l, (s.lanes.get l).record.enable = true →
        (s.lanes.get l).record.lastColumn < s.layout.width (s.lanes.get l).record.side)
      ∧ ∀ l m, l ≠ m → (s.lanes.get l).record.enable = true → (s.lanes.get m).record.enable = true →
        (s.lanes.get l).record.side = (s.lanes.get m).record.side →
        (s.lanes.get l).record.lastColumn < (s.lanes.get m).record.column
          ∨ (s.lanes.get m).record.lastColumn < (s.lanes.get l).record.column := by
  have happart (l m : Fin 8) :
      (decide (l = m) || decide ((s.lanes.get l).record.side ≠ (s.lanes.get m).record.side)
          || !rangesMeet (s.lanes.get l).record.column (s.lanes.get l).record.lastColumn (s.lanes.get m).record.column
            (s.lanes.get m).record.lastColumn) = true
        ↔ (l ≠ m → (s.lanes.get l).record.side = (s.lanes.get m).record.side →
          (s.lanes.get l).record.lastColumn < (s.lanes.get m).record.column
            ∨ (s.lanes.get m).record.lastColumn < (s.lanes.get l).record.column) := by
    rw [← rangesMeet_false_iff]
    simp only [Bool.or_eq_true, decide_eq_true_eq, Bool.not_eq_true']
    tauto
  simp only [State.rangesOk, List.all_eq_true, s.mem_enabledLanes, Bool.and_eq_true, happart, decide_eq_true_eq]
  exact ⟨fun h => ⟨fun l hl => (h l hl).1, fun l m hne hl hm => (h l hl).2 m hm hne⟩,
    fun h l hl => ⟨h.1 l hl, fun m hm hne => h.2 l m hne hl hm⟩⟩

theorem State.segmentsOk_iff (s : State) : s.segmentsOk = true ↔
    ∀ r, (s.dle.routes.get r).enable = true →
      s.layout.tileWidth + 16 ≤
        ((s.ports.get (s.dle.routes.get r).port).staged.getD (s.ports.get (s.dle.routes.get r).port).record).maxSegment := by
  simp only [State.segmentsOk, List.all_eq_true, Bool.or_eq_true, Bool.not_eq_true', decide_eq_true_eq]
  exact ⟨fun h r hr => (h r (mem_indices r)).resolve_left (by simp [hr]),
    fun h r _ => (Bool.eq_false_or_eq_true _).symm.imp id (h r)⟩

/-- The checks of R172, as the model makes them. -/
theorem State.runStartOk_iff (s : State) : s.runStartOk = true ↔ s.setupConsistent := by
  have hlane : (!s.enabledLanes.isEmpty) = true ↔ ∃ l, (s.lanes.get l).record.enable = true := by
    rw [Bool.not_eq_true', List.isEmpty_eq_false_iff_exists_mem]
    exact exists_congr s.mem_enabledLanes
  simp only [State.runStartOk, Bool.and_eq_true, hlane, s.rangesOk_iff, LayoutRecord.holdsPlanes_iff, s.segmentsOk_iff,
    decide_eq_true_eq, State.setupConsistent, and_assoc]

/-- A command's packet leaving the inbound buffer changes no setup. -/
theorem State.took_setupConsistent (s : State) (p : Port) (rest : List InPacket) :
    (s.took p rest).setupConsistent ↔ s.setupConsistent := by
  have hport (q : Port) : (((s.took p rest).ports.get q).staged.getD ((s.took p rest).ports.get q).record)
      = ((s.ports.get q).staged.getD (s.ports.get q).record) := by
    obtain ⟨inbound, h⟩ := s.took_get p q rest
    rw [h]
  unfold State.setupConsistent
  simp only [hport]
  rfl

/-! ## The frames of an earlier run (R106) -/

/-- A slot that a run start frees. -/
abbrev Slot.ofRun (x : Slot) : Prop := x.state = .opened ∨ x.state = .closed

theorem Slot.ofRun_iff (x : Slot) : x.ofRun ↔ ¬ (x.state = .free ∨ x.state = .held) := by
  unfold Slot.ofRun
  cases x.state <;> simp

/-- One slot at a run start. -/
def State.freeIfOfRun (s : State) (i : Nat) : State := if (s.slot i).state = .free ∨ (s.slot i).state = .held then s else s.freeSlot i

theorem State.freeIfOfRun_slot (s : State) (i j : Nat) :
    (s.freeIfOfRun i).slot j = if j = i ∧ (s.slot i).ofRun then Slot.empty else s.slot j := by
  unfold State.freeIfOfRun
  split
  · next h => rw [if_neg fun hj => (Slot.ofRun_iff _).mp hj.2 h]
  · next h =>
    have hrun := (Slot.ofRun_iff _).mpr h
    rw [State.freeSlot_slot]
    simp only [hrun, and_true]

theorem State.mem_freeIfOfRun (s : State) (i : Nat) (r : Fin 8) (d : Delivery) :
    d ∈ (s.freeIfOfRun i).dle.records.get r ↔ d ∈ s.dle.records.get r ∧ ((s.slot i).ofRun → d.alloc ≠ (s.slot i).alloc) := by
  unfold State.freeIfOfRun
  split
  · next h => exact ⟨fun hd => ⟨hd, fun hrun => absurd h ((Slot.ofRun_iff _).mp hrun)⟩, And.left⟩
  · next h =>
    have hrun := (Slot.ofRun_iff _).mpr h
    rw [State.freeSlot_records, List.mem_filter, decide_eq_true_eq]
    simp only [hrun, true_implies]

theorem foldl_freeIfOfRun (is : List Nat) (hnodup : is.Nodup) (s : State) :
    (∀ j, (is.foldl State.freeIfOfRun s).slot j = if j ∈ is ∧ (s.slot j).ofRun then Slot.empty else s.slot j)
      ∧ ∀ r d, d ∈ (is.foldl State.freeIfOfRun s).dle.records.get r
          ↔ d ∈ s.dle.records.get r ∧ ∀ i ∈ is, (s.slot i).ofRun → d.alloc ≠ (s.slot i).alloc := by
  induction is generalizing s with
  | nil => simp
  | cons i is ih =>
    obtain ⟨hi, hrest⟩ := List.nodup_cons.mp hnodup
    obtain ⟨hslot, hrec⟩ := ih hrest (s.freeIfOfRun i)
    have hother {j : Nat} (hj : j ∈ is) : (s.freeIfOfRun i).slot j = s.slot j := by
      rw [State.freeIfOfRun_slot, if_neg fun h : j = i ∧ (s.slot i).ofRun => hi (h.1 ▸ hj)]
    refine ⟨fun j => ?_, fun r d => ?_⟩
    · rw [List.foldl_cons, hslot]
      by_cases hj : j ∈ is
      · simp only [hother hj, hj, List.mem_cons, or_true]
      · rw [if_neg fun h => hj h.1, State.freeIfOfRun_slot]
        by_cases hji : j = i
        · subst hji; simp
        · simp [hji, hj]
    · rw [List.foldl_cons, hrec, State.mem_freeIfOfRun, List.forall_mem_cons, and_assoc]
      refine and_congr_right fun _ => and_congr_right fun _ => forall₂_congr fun j hj => ?_
      rw [hother hj]

theorem State.freeRunSlots_spec (s : State) :
    (∀ i, s.freeRunSlots.slot i = if (s.slot i).ofRun then Slot.empty else s.slot i)
      ∧ ∀ r d, d ∈ s.freeRunSlots.dle.records.get r
          ↔ d ∈ s.dle.records.get r ∧ ∀ i, (s.slot i).ofRun → d.alloc ≠ (s.slot i).alloc := by
  have hfold : s.freeRunSlots = (List.range s.slm.slots.length).foldl State.freeIfOfRun s := rfl
  have hin {i : Nat} (h : (s.slot i).ofRun) : i ∈ List.range s.slm.slots.length :=
    List.mem_range.mpr (s.lt_of_slot_ne_free fun hfree => (Slot.ofRun_iff _).mp h (.inl hfree))
  obtain ⟨hslot, hrec⟩ := foldl_freeIfOfRun _ List.nodup_range s
  rw [hfold]
  refine ⟨fun i => ?_, fun r d => ?_⟩
  · rw [hslot]
    exact if_congr ⟨And.right, fun h => ⟨hin h, h⟩⟩ rfl rfl
  · rw [hrec]
    exact and_congr_right fun _ => ⟨fun h i hi => h i (hin hi) hi, fun h i _ => h i⟩

theorem State.freeRunSlots_capacity (s : State) : s.freeRunSlots.rowCapacity = s.rowCapacity := by
  unfold State.rowCapacity State.geometry State.layersInUse State.enabledLanes
  simp

/-! ## The run begun -/

theorem runStart_refusal {s : State} {c : InPacket} (hs : s.rnc.runState = .config) (hp : c.passes 0x20 0) :
    s.firstRefusal .a c = none :=
  State.admits_config (row := ⟨codeRunStart, 0, .config, false⟩) (by decide) rfl hp hs (.inl (by decide))

theorem State.startRun_slm (s : State) : s.startRun.slm = s.freeRunSlots.slm ∧ s.startRun.dle = s.freeRunSlots.dle := by
  simp [State.startRun, State.enterRunState]

theorem State.startRun_ports (s : State) :
    ∃ notices, s.startRun.ports = { s.ports with a := { s.ports.a with notices := notices } } := by
  unfold State.startRun State.enterRunState
  obtain ⟨notices, h⟩ := State.raise_ports _ .runState none none RunState.running.code
  exact ⟨notices, by rw [h]; simp⟩

/-- Settles O22: RUN_START from a consistent setup, and the CONFLICT it is otherwise. -/
theorem runStartBeginsARun : Obligations.RunStartBeginsARun := by
  intro s c rest htake hp hconfig
  have hadmit := runStart_refusal hconfig hp
  have hchecks := (s.took .a rest).runStartOk_iff.trans (s.took_setupConsistent .a rest)
  refine ⟨fun hbad => ?_, fun hgood => ?_⟩
  · exact exec_refuse rfl htake hp hadmit (if_neg fun h => hbad (hchecks.mp h))
  · refine ⟨_, exec_accept rfl htake hp hadmit (if_pos (hchecks.mpr hgood)), ?_⟩
    obtain ⟨hslm, hdle⟩ := (s.took .a rest).startRun_slm
    obtain ⟨notices, hports⟩ := (s.took .a rest).startRun_ports
    obtain ⟨hslot, hrec⟩ := (s.took .a rest).freeRunSlots_spec
    have hslot (i : Nat) : (s.took .a rest).startRun.slot i = if (s.slot i).ofRun then Slot.empty else s.slot i := by
      rw [State.slot, hslm]; exact hslot i
    refine ⟨?_, ?_, ?_, fun l => ?_, ?_, fun i => ⟨fun h => ?_, fun h => ?_⟩, fun r d => ?_, by simp, by simp, by simp, by simp, by simp,
      by simp, by simp, by simp, by simp, (s.took .a rest).startRun_runState.2, ?_, ?_, by simp⟩
    · simp [State.startRun, State.enterRunState]
    · simp [State.startRun, State.enterRunState]
    · simp [State.startRun, State.enterRunState]
    · simp [State.startRun, State.enterRunState, Lane.runStart]
    · have hcapacity : (s.took .a rest).rowCapacity = s.rowCapacity := rfl
      simp [State.startRun, State.enterRunState, Frt.reset, State.freeRunSlots_capacity, hcapacity]
    · rw [hslot, if_neg fun hrun => (Slot.ofRun_iff _).mp hrun h]
    · rw [hslot, if_pos h]
    · rw [hdle]; exact hrec r d
    · rw [hports]; rfl
    · rw [hports]; rfl

end Sys2Proof.Machine

/-! # What counts and lane packets leave of the host ports

A count, a lane link loss and a lane packet change nothing at the host ports but the notices of port A, before the ports' own choices. -/

namespace Sys2Proof.Machine

/-- The host ports but for their notices. -/
def State.quiet (s : State) : Both HostPort := ⟨s.ports.a.quiet, s.ports.b.quiet⟩

section Quiet

variable (s : State)

theorem State.quiet_get (p : Port) : s.quiet.get p = (s.ports.get p).quiet := by cases p <;> rfl

theorem State.quiet_of_ports {s t : State} (h : t.ports = s.ports) : t.quiet = s.quiet := by rw [State.quiet, h]; rfl

@[simp] theorem State.raise_bothQuiet (x : Source) (fr : Option Nat) (l : Option (Fin 8)) (d : Int) :
    (s.raise x fr l d).quiet = s.quiet :=
  Both.ext_get fun p => by rw [State.quiet_get, State.quiet_get, State.raise_quiet]

/-! ## Ticks -/

theorem State.countPosition_quiet (f : PositionCounters → PositionCounters) : (s.countPosition f).quiet = s.quiet := rfl

theorem State.countFrames_quiet (f : FrameCounters → FrameCounters) : (s.countFrames f).quiet = s.quiet := rfl

theorem State.withhold_quiet (l : Fin 8) (tick : Int) (x : PhaseEntry) : (s.withhold l tick x).quiet = s.quiet := by
  rw [State.withhold, State.raise_bothQuiet]
  exact State.quiet_of_ports (by simp)

theorem State.offerEntry_quiet (tick : Int) (e : Fin 8) (x : PhaseEntry) (l : Fin 8) : (s.offerEntry tick e x l).quiet = s.quiet := by
  have happend : (s.append l tick e x).quiet = s.quiet := rfl
  have hfill (u : State) (p : Int) (c : FillCause) : (u.fillMark l x.plane p c).quiet = u.quiet := State.quiet_of_ports (by simp)
  unfold State.offerEntry
  dsimp only
  repeat' split
  · exact happend
  · exact s.withhold_quiet l tick x
  · rw [hfill, happend]
  · exact s.withhold_quiet l tick x
  · exact hfill _ _ _
  · rfl
  · rfl

theorem State.offered_quiet (tick : Int) (e : Fin 8) (x : PhaseEntry) : (s.offered tick e x).quiet = s.quiet :=
  foldl_keeps State.quiet (fun s l => s.offerEntry tick e x l) (fun u l => u.offerEntry_quiet tick e x l) indices s

theorem State.issueNext_quiet : s.issueNext.quiet = s.quiet := by
  rcases s.issueNext_cases with h | ⟨g, e, -, -, h⟩
  · rw [h]
  · have hoffered := (s.pulsed (s.tru.table.get e)).offered_quiet g.tick e (s.tru.table.get e)
    rw [h]
    exact (State.quiet_of_ports (t := State.oneIssued _ g) rfl).trans hoffered

theorem State.overspeedTick_quiet (tick : Int) : (s.overspeedTick tick).quiet = s.quiet := by
  have hmarks := foldl_keeps State.quiet (fun s l => s.overspeedMarks tick l) (fun u l => State.quiet_of_ports (by simp)) indices s
  unfold State.overspeedTick
  dsimp only
  rw [State.raise_bothQuiet, ← hmarks]
  rfl

@[simp] theorem State.decideTick_quiet (tick : Int) : (s.decideTick tick).quiet = s.quiet := by
  unfold State.decideTick
  split
  · split
    · exact (State.issueNext_quiet _).trans rfl
    · exact s.overspeedTick_quiet tick
  · rfl

@[simp] theorem State.spurious_quiet (tick : Int) (edges : Nat) : (s.spurious tick edges).quiet = s.quiet := by
  unfold State.spurious
  split
  · rfl
  · rw [State.raise_bothQuiet, State.countPosition_quiet]

@[simp] theorem State.dropFrame_quiet (number : Nat) (reason : DropReason) : (s.dropFrame number reason).quiet = s.quiet := by
  rw [State.dropFrame, State.raise_bothQuiet, State.countFrames_quiet]

theorem State.evict_quiet (i : Nat) : (s.evict i).quiet = s.quiet := by
  rw [State.evict, State.raise_bothQuiet, State.countFrames_quiet]
  exact State.quiet_of_ports (by simp)

theorem State.allocate_quiet (number : Nat) (start : Int) (kind : BoundaryKind) : (s.allocate number start kind).2.quiet = s.quiet := by
  have hset (u : State) (i : Nat) : (u.setUpSlot i number start kind).quiet = u.quiet := State.quiet_of_ports (by simp)
  rcases s.allocate_cases number start kind with ⟨i, -, h⟩ | ⟨-, ⟨-, i, -, h⟩ | ⟨-, h⟩⟩ <;> rw [h]
  · exact hset s i
  · exact (hset _ i).trans (s.evict_quiet i)

@[simp] theorem State.openFrame_quiet (number : Nat) (start : Int) (kind : BoundaryKind) :
    (s.openFrame number start kind).quiet = s.quiet := by
  rcases s.openFrame_cases number start kind with ⟨-, h⟩ | ⟨-, ⟨-, h⟩ | ⟨i, t, ha, h⟩⟩ <;> rw [h]
  · exact s.dropFrame_quiet _ _
  · exact s.dropFrame_quiet _ _
  · have hallocate := s.allocate_quiet number start kind
    rw [ha] at hallocate
    exact (State.quiet_of_ports (t := t.joined i number start) rfl).trans hallocate

theorem State.boundaryBegun_quiet (kind : BoundaryKind) : (s.boundaryBegun kind).quiet = s.quiet := by
  unfold State.boundaryBegun
  dsimp only
  split
  · rw [State.raise_bothQuiet]; rfl
  · rfl

@[simp] theorem State.takeBoundary_quiet (tick : Int) (kind : BoundaryKind) : (s.takeBoundary tick kind).quiet = s.quiet := by
  have hclosed : (s.boundaryClosed tick kind).quiet = (s.boundaryBegun kind).quiet :=
    State.quiet_of_ports (by simp [State.boundaryClosed])
  rw [State.takeBoundary_eq]
  exact (State.quiet_of_ports (t := State.tracking _ tick) rfl).trans
    ((State.openFrame_quiet _ _ _ _).trans (hclosed.trans (s.boundaryBegun_quiet kind)))

@[simp] theorem State.judgeTick_quiet (tick : Int) (edges : Nat) : (s.judgeTick tick edges).quiet = s.quiet := by
  have htruncate (u : State) : (u.truncateNewest tick).quiet = u.quiet := State.quiet_of_ports (by simp)
  rcases s.judgeTick_cases tick edges with ⟨-, h⟩ | ⟨-, ⟨kind, spare, -, h⟩ | ⟨spare, -, ⟨-, h⟩ | ⟨-, h⟩⟩⟩ <;> rw [h]
  · rw [State.spurious_quiet, State.takeBoundary_quiet]
  · rw [htruncate, State.spurious_quiet]
  · rw [State.spurious_quiet]

@[simp] theorem State.progressed_quiet : s.progressed.quiet = s.quiet := State.quiet_of_ports (by simp)

theorem State.handTick_quiet : s.handTick.quiet = s.quiet := by
  simp only [State.handTick, State.progressed_quiet, State.decideTick_quiet, State.judgeTick_quiet]
  rfl

theorem State.emitTick_quiet : s.emitTick.quiet = s.quiet := by
  unfold State.emitTick
  dsimp only
  split
  · rfl
  · exact (State.handTick_quiet _).trans rfl

/-! ## Rewinds and counts -/

theorem State.shortClose_quiet (high : Int) (reason : CloseReason) (f : OpenFrame) : (s.shortClose high reason f).quiet = s.quiet := by
  unfold State.shortClose
  dsimp only
  split <;> rw [State.raise_bothQuiet, State.countFrames_quiet] <;> exact State.quiet_of_ports (by simp)

theorem State.rewindFrames_quiet (before : Int) : (s.rewindFrames before).quiet = s.quiet :=
  foldl_keeps State.quiet (fun s f => s.shortClose before .shortRewind f) (fun u f => u.shortClose_quiet before .shortRewind f)
    s.frt.openList s

theorem State.rewind_quiet : s.rewind.quiet = s.quiet := by
  unfold State.rewind
  dsimp only
  split
  · rw [State.raise_bothQuiet]; rfl
  · rw [State.progressed_quiet, State.rewindFrames_quiet, State.raise_bothQuiet]; rfl

theorem State.takeCount_quiet (line : EncLine) : (s.takeCount line).quiet = s.quiet := by
  have hmotion : (s.afterMotion line).quiet = s.quiet := by
    unfold State.afterMotion State.moved
    split
    · rfl
    · rw [State.raise_bothQuiet]; rfl
  rw [State.takeCount_eq, ← hmotion]
  split
  · rcases (s.afterMotion line).forwardCount_cases with ⟨-, h⟩ | ⟨-, -, h⟩ | ⟨-, -, ⟨-, h⟩ | ⟨-, h⟩⟩ <;> rw [h]
    · rfl
    · rfl
    · rfl
    · rw [State.emitTick_quiet]; rfl
  · rcases (s.afterMotion line).reverseCount_cases with ⟨-, h⟩ | ⟨-, -, h⟩ | ⟨-, -, ⟨-, h⟩ | ⟨-, -, h⟩⟩ <;> rw [h]
    · rfl
    · rfl
    · rfl
    · rw [State.rewind_quiet]; rfl

theorem State.laneLost_quiet (l : Fin 8) : (s.laneLost l).quiet = s.quiet := by
  unfold State.laneLost
  dsimp only
  split
  · rw [State.progressed_quiet, State.raise_bothQuiet]
    exact State.quiet_of_ports (by simp)
  · exact State.quiet_of_ports (by simp)

end Quiet

/-- The link state and the owed wake of a port, which no raised source moves. -/
theorem State.link_of_quiet {s t : State} (h : t.quiet = s.quiet) (p : Port) :
    (t.ports.get p).link = (s.ports.get p).link ∧ (t.ports.get p).wakeOwed = (s.ports.get p).wakeOwed := by
  have hport := congrArg (fun b => b.get p) h
  simp only [State.quiet_get] at hport
  exact ⟨by simpa [HostPort.quiet] using congrArg HostPort.link hport, by simpa [HostPort.quiet] using congrArg HostPort.wakeOwed hport⟩

end Sys2Proof.Machine

/-! # The ports' choices, rule by rule (R130, R159, R160, R163, R164) -/

namespace Sys2Proof.Machine

/-! ## What the sources of a port are judged by -/

/-- Two states in which the delivery sources of a port are judged alike. -/
structure SameSources (p : Port) (s t : State) : Prop where
  routes : t.dle.routes = s.dle.routes
  paused : t.dle.paused = s.dle.paused
  records : ∀ r, (s.dle.routes.get r).port = p → t.dle.records.get r = s.dle.records.get r
  rereads : t.dle.rereads.get p = s.dle.rereads.get p
  ptk : t.ptk = s.ptk
  tru : t.tru = s.tru
  lanes : t.lanes = s.lanes
  frt : t.frt = s.frt
  slm : t.slm = s.slm
  rnc : t.rnc = s.rnc

theorem SameSources.refl (p : Port) (s : State) : SameSources p s s := ⟨rfl, rfl, fun _ _ => rfl, rfl, rfl, rfl, rfl, rfl, rfl, rfl⟩

/-- What leaves the blocks that the sources are judged by. -/
theorem SameSources.of_blocks {p : Port} {s t : State} (hdle : t.dle = s.dle := by simp) (hptk : t.ptk = s.ptk := by simp)
    (htru : t.tru = s.tru := by simp) (hlanes : t.lanes = s.lanes := by simp) (hfrt : t.frt = s.frt := by simp)
    (hslm : t.slm = s.slm := by simp) (hrnc : t.rnc = s.rnc := by simp) : SameSources p s t := by
  refine ⟨?_, ?_, fun r _ => ?_, ?_, hptk, htru, hlanes, hfrt, hslm, hrnc⟩ <;> rw [hdle]

/-- What a route offers turns on its records, on the paused mask and on the slots. -/
theorem State.offer_congr {s t : State} {r : Fin 8} (hrecords : t.dle.records.get r = s.dle.records.get r)
    (hpaused : t.dle.paused = s.dle.paused) (hslm : t.slm = s.slm) : t.offer r = s.offer r := by
  have hcurrent : t.current r = s.current r := by rw [State.current, hrecords]; rfl
  have hnext (d : Delivery) : t.offerNext d = s.offerNext d := by unfold State.offerNext State.slot; rw [hslm]
  unfold State.offer
  rw [hcurrent]
  cases s.current r with
  | none => rfl
  | some d => simp only [hpaused, hnext]

section SameSources

variable {p : Port} {s t u : State} (h : SameSources p s t)
include h

theorem SameSources.trans (h' : SameSources p t u) : SameSources p s u where
  routes := h'.routes.trans h.routes
  paused := h'.paused.trans h.paused
  records r hr := (h'.records r (by rw [h.routes]; exact hr)).trans (h.records r hr)
  rereads := h'.rereads.trans h.rereads
  ptk := h'.ptk.trans h.ptk
  tru := h'.tru.trans h.tru
  lanes := h'.lanes.trans h.lanes
  frt := h'.frt.trans h.frt
  slm := h'.slm.trans h.slm
  rnc := h'.rnc.trans h.rnc

theorem SameSources.routesOf : t.routesOf p = s.routesOf p := by rw [State.routesOf, h.routes]; rfl

theorem SameSources.slot (i : Nat) : t.slot i = s.slot i := by rw [State.slot, h.slm]; rfl

theorem SameSources.current {r : Fin 8} (hr : (s.dle.routes.get r).port = p) : t.current r = s.current r := by
  rw [State.current, h.records r hr]; rfl

theorem SameSources.effective (high : Int) (l : Fin 8) : t.effective high l = s.effective high l := by
  unfold State.effective State.progress State.unfinished
  rw [h.rnc, h.frt, h.lanes, h.tru]

theorem SameSources.enabledLanes : t.enabledLanes = s.enabledLanes := by rw [State.enabledLanes, h.lanes]; rfl

theorem SameSources.offer {r : Fin 8} (hr : (s.dle.routes.get r).port = p) : t.offer r = s.offer r :=
  State.offer_congr (h.records r hr) h.paused h.slm

theorem SameSources.eligible (i : Fin 9) : t.eligible p i = s.eligible p i := by
  unfold State.eligible
  rw [h.routes, h.rereads]
  split
  · next hi =>
    by_cases hr : (s.dle.routes.get ⟨i.val, hi⟩).port = p
    · rw [h.offer hr]
    · simp [hr]
  · rfl

theorem SameSources.workPresent (hreplies : (t.ports.get p).replies = (s.ports.get p).replies)
    (hnotices : (t.ports.get p).notices = (s.ports.get p).notices) (hpointer : (t.ports.get p).pointer = (s.ports.get p).pointer) :
    t.workPresent p = s.workPresent p := by
  unfold State.workPresent
  simp only [hreplies, hnotices, hpointer, h.eligible]

theorem SameSources.wakeLeadPasses {r : Fin 8} (hr : (s.dle.routes.get r).port = p) (lead : Nat) :
    t.wakeLeadPasses lead r = s.wakeLeadPasses lead r := by
  have hgate : t.wakeGate r = s.wakeGate r := by
    unfold State.wakeGate
    rw [h.current hr, h.routes, h.enabledLanes]
    simp only [h.slot]
  unfold State.wakeLeadPasses
  simp only [hgate, h.ptk, h.effective]

theorem SameSources.leadPresent (hrecord : (t.ports.get p).record = (s.ports.get p).record) {routes : List (Fin 8)}
    (hroutes : ∀ r ∈ routes, (s.dle.routes.get r).port = p) : t.leadPresent p routes = s.leadPresent p routes := by
  unfold State.leadPresent
  rw [hrecord, Bool.eq_iff_iff, List.any_eq_true, List.any_eq_true]
  exact exists_congr fun r => and_congr_right fun hr => by rw [h.wakeLeadPasses (hroutes r hr)]

theorem SameSources.mayRest (hport : t.ports.get p = s.ports.get p) : t.mayRest p ↔ s.mayRest p := by
  have hwork : t.workPresent p = s.workPresent p := h.workPresent (by rw [hport]) (by rw [hport]) (by rw [hport])
  have hlead : t.leadPresent p (s.routesOf p) = s.leadPresent p (s.routesOf p) :=
    h.leadPresent (by rw [hport]) fun r hr => by simpa using (List.mem_filter.mp hr).2
  unfold State.mayRest
  rw [hport, hwork, h.routesOf, hlead, h.rnc]

theorem SameSources.openPlan (r : Fin 8) (d : Delivery) : t.openPlan r d = s.openPlan r d := by
  have hreached (high pos : Int) : t.allReached high pos = s.allReached high pos := by
    unfold State.allReached; simp only [h.enabledLanes, h.effective]
  have hearly (x : Slot) (plan : Plan) : t.earlyOpen x plan = s.earlyOpen x plan := by
    unfold State.earlyOpen
    simp only [hreached, h.ptk]
  unfold State.openPlan
  simp only [h.routes, h.slot, hearly]

theorem SameSources.setRecord (r : Fin 8) (a : Nat) (f : Delivery → Delivery) :
    SameSources p (s.setRecord r a f) (t.setRecord r a f) where
  routes := h.routes
  paused := h.paused
  records q hq := by
    rw [State.setRecord_get, State.setRecord_get]
    split
    · next hqr => subst hqr; rw [h.records q hq]
    · exact h.records q hq
  rereads := h.rereads
  ptk := h.ptk
  tru := h.tru
  lanes := h.lanes
  frt := h.frt
  slm := h.slm
  rnc := h.rnc

theorem SameSources.formOpen {r : Fin 8} (hr : (s.dle.routes.get r).port = p) : SameSources p (s.formOpen r) (t.formOpen r) := by
  unfold State.formOpen
  rw [h.current hr]
  cases s.current r with
  | none => exact h
  | some d =>
    simp only [h.paused, h.openPlan, h.routes, h.slot]
    split
    · cases s.openPlan r d with
      | none => exact h
      | some plan => exact h.setRecord r d.alloc _
    · exact h

theorem SameSources.formOpens (hlink : (t.ports.get p).link = .down ↔ (s.ports.get p).link = .down) :
    SameSources p (s.formOpens p) (t.formOpens p) := by
  have hfold (rs : List (Fin 8)) (hrs : ∀ r ∈ rs, (s.dle.routes.get r).port = p) :
      SameSources p (rs.foldl State.formOpen s) (rs.foldl State.formOpen t) := by
    induction rs generalizing s t with
    | nil => exact h
    | cons r rs ih =>
      obtain ⟨hr, hrs⟩ := List.forall_mem_cons.mp hrs
      exact ih (h.formOpen hr) (by simpa using hlink) fun q hq => by simpa using hrs q hq
  unfold State.formOpens
  rw [h.routesOf]
  by_cases hdown : (s.ports.get p).link = .down
  · rw [if_pos hdown, if_pos (hlink.mpr hdown)]; exact h
  · rw [if_neg hdown, if_neg fun hd => hdown (hlink.mp hd)]
    exact hfold _ fun r hr => by simpa using (List.mem_filter.mp hr).2

end SameSources

/-! ## What forming a FRAME_OPEN does to the sources (R130) -/

/-- A route that forms its FRAME_OPEN had nothing to offer, and no other route is touched: every source with a unit keeps it. -/
theorem State.formOpen_offers (s : State) (q : Fin 8) {r : Fin 8} (hr : (s.offer r).isSome = true) :
    ((s.formOpen q).offer r).isSome = true := by
  rcases s.formOpen_cases q with h | ⟨d, plan, hd, hp, ho, -, -, h⟩
  · rwa [h]
  · rw [h]
    by_cases hrq : r = q
    · subst hrq
      unfold State.offer at hr
      rw [hd] at hr
      simp [hp, ho] at hr
    · have hoffer := State.offer_congr ((s.setRecord_get q r d.alloc fun y =>
        { y with plan := some plan, opening := some (frameOpenPacket q (s.dle.routes.get q).early (s.slot d.slot) plan) }).trans (if_neg hrq))
        rfl rfl
      rwa [hoffer]

theorem State.formOpens_offers (s : State) (p : Port) {r : Fin 8} (hr : (s.offer r).isSome = true) :
    ((s.formOpens p).offer r).isSome = true := by
  unfold State.formOpens
  split
  · exact hr
  · exact foldl_holds (fun u => (u.offer r).isSome = true) _ (fun u q hu => u.formOpen_offers q hu) _ s hr

theorem State.formOpens_workPresent (s : State) (p : Port) (h : s.workPresent p = true) : (s.formOpens p).workPresent p = true := by
  have heligible (i : Fin 9) (hi : s.eligible p i = true) : (s.formOpens p).eligible p i = true := by
    unfold State.eligible at hi ⊢
    split
    · next hlt =>
      rw [dif_pos hlt, Bool.and_eq_true] at hi
      rw [Bool.and_eq_true]
      exact ⟨by simpa using hi.1, s.formOpens_offers p hi.2⟩
    · next hlt => rw [dif_neg hlt] at hi; simpa using hi
  unfold State.workPresent at h ⊢
  simp only [Bool.or_eq_true, List.any_eq_true, State.formOpens_frame] at h ⊢
  exact h.imp id fun ⟨i, hi, he⟩ => ⟨i, hi, heligible i he⟩

theorem State.formOpen_records_ne (s : State) {q r : Fin 8} (hqr : r ≠ q) : (s.formOpen q).dle.records.get r = s.dle.records.get r := by
  rcases s.formOpen_cases q with h | ⟨d, plan, -, -, -, -, -, h⟩ <;> rw [h]
  rw [State.setRecord_get, if_neg hqr]

theorem foldl_formOpen_ne (rs : List (Fin 8)) {r : Fin 8} (hr : r ∉ rs) (s : State) :
    (rs.foldl State.formOpen s).dle.records.get r = s.dle.records.get r := by
  induction rs generalizing s with
  | nil => rfl
  | cons q rs ih =>
    rw [List.foldl_cons, ih (fun h => hr (List.mem_cons_of_mem _ h)), State.formOpen_records_ne _ fun h : r = q => hr (h ▸ List.mem_cons_self)]

/-- Forming FRAME_OPENs on a port touches the records of its routes alone. -/
theorem State.formOpens_records_ne (s : State) (p : Port) {r : Fin 8} (hr : (s.dle.routes.get r).port ≠ p) :
    (s.formOpens p).dle.records.get r = s.dle.records.get r := by
  unfold State.formOpens
  split
  · rfl
  · exact foldl_formOpen_ne _ (fun h => hr (by simpa using (List.mem_filter.mp h).2)) s

/-! ## The arbiter's choice (R159, R160) -/

/-- A port but for what its arbiter moves. -/
def HostPort.unchosen (h : HostPort) : HostPort := { h with tx := none, tile := none, pointer := 8 }

/-- A packet that is no REST is in transmission. -/
def HostPort.sendsUnit (h : HostPort) : Prop := ∃ x k, h.tx = some { source := x, packet := k } ∧ x ≠ .rest

/-- What a port's choice may do: nothing, or begin a packet, moving nothing else at the port but its tile and its pointer, and no records
and rereads but those of its own sources. -/
structure Begins (p : Port) (s t : State) : Prop where
  port : (t.ports.get p).unchosen = (s.ports.get p).unchosen
  sends : (t.ports.get p).sendsUnit
  records : ∀ r, (s.dle.routes.get r).port ≠ p → t.dle.records.get r = s.dle.records.get r
  rereads : ∀ q, q ≠ p → t.dle.rereads.get q = s.dle.rereads.get q

theorem Begins.send (s : State) (p : Port) {x : TxSource} (k : Packet) (hx : x ≠ .rest) : Begins p s (s.send p x k) where
  port := by rw [State.send, State.setPort_get_self]; rfl
  sends := ⟨x, k, by rw [State.send, State.setPort_get_self], hx⟩
  records _ _ := rfl
  rereads _ _ := rfl

theorem Begins.sendSegment (s : State) (p : Port) (r : Fin 8) (d : Delivery) (span : TileSpan) (c n : Nat) :
    Begins p s (s.sendSegment p r d span c n) := .send s p _ (fun h => TxSource.noConfusion h)

/-- A choice that follows a change of the port's tile or pointer, or of its own sources. -/
theorem Begins.after {p : Port} {s u t : State} (h : Begins p u t) (hport : (u.ports.get p).unchosen = (s.ports.get p).unchosen)
    (hroutes : u.dle.routes = s.dle.routes) (hrecords : ∀ r, (s.dle.routes.get r).port ≠ p → u.dle.records.get r = s.dle.records.get r)
    (hrereads : ∀ q, q ≠ p → u.dle.rereads.get q = s.dle.rereads.get q) : Begins p s t where
  port := h.port.trans hport
  sends := h.sends
  records r hr := (h.records r (by rw [hroutes]; exact hr)).trans (hrecords r hr)
  rereads q hq := (h.rereads q hq).trans (hrereads q hq)

theorem State.beginTile_begins (s : State) (p : Port) {r : Fin 8} (hr : (s.dle.routes.get r).port = p) (d : Delivery) (c n : Nat) :
    Begins p s (s.beginTile p r d c n) := by
  unfold State.beginTile
  dsimp only
  refine (Begins.sendSegment _ p r d _ c n).after (by rw [State.setPort_get_self]; rfl) rfl (fun q hq => ?_) fun _ _ => rfl
  exact (s.setRecord_get r q d.alloc _).trans (if_neg fun h : q = r => hq (h ▸ hr))

theorem State.serveRoute_begins (s : State) (p : Port) {r : Fin 8} (hr : (s.dle.routes.get r).port = p)
    (hoffer : (s.offer r).isSome = true) : Begins p s (s.serveRoute p r) := by
  have hcurrent : s.current r ≠ none := fun h => by unfold State.offer at hoffer; rw [h] at hoffer; cases hoffer
  obtain ⟨d, hd⟩ := Option.ne_none_iff_exists'.mp hcurrent
  obtain ⟨x, hx⟩ := Option.isSome_iff_exists.mp hoffer
  unfold State.serveRoute
  rw [hd, hx]
  cases x with
  | frameOpen k => exact .send s p k fun h => TxSource.noConfusion h
  | tile c n => exact s.beginTile_begins p hr d c n
  | frameEnd revoked => exact .send s p _ fun h => TxSource.noConfusion h

theorem State.serveReread_cases (s : State) (p : Port) :
    s.dle.rereads.get p = [] ∧ s.serveReread p = s ∨ s.dle.rereads.get p ≠ [] ∧ Begins p s (s.serveReread p) := by
  unfold State.serveReread
  split
  · next h => exact .inl ⟨h, rfl⟩
  · next e es h =>
    refine .inr ⟨by rw [h]; exact List.cons_ne_nil e es, ?_⟩
    dsimp only
    refine (Begins.send _ p _ fun h => TxSource.noConfusion h).after (by rw [State.setPort_get_self]; rfl) rfl (fun _ _ => rfl) fun q hq => ?_
    simp [State.setRereads_get, hq]

theorem State.continueTile_cases (s : State) (p : Port) (r : Fin 8) :
    s.continueTile p r = s ∨ Begins p s (s.continueTile p r) := by
  unfold State.continueTile
  repeat' split
  · exact .inl rfl
  · exact .inl rfl
  · exact .inr (.send s p _ fun h => TxSource.noConfusion h)
  · exact .inr (.sendSegment s p _ _ _ _ _)
  · exact .inl rfl

/-- Every source has its place in the cyclic order (R160). -/
theorem mem_cyclicFrom (pointer i : Fin 9) : i ∈ cyclicFrom pointer := by revert pointer i; decide

theorem State.serveNext_cases (s : State) (p : Port) :
    ((∀ i, s.eligible p i = false) ∧ s.serveNext p = s) ∨ Begins p s (s.serveNext p) := by
  unfold State.serveNext
  split
  · next hnone => exact .inl ⟨fun i => by simpa using List.find?_eq_none.mp hnone i (mem_cyclicFrom _ i), rfl⟩
  · next i hi =>
    have heligible := List.find?_some hi
    have hafter {t : State} (ht : Begins p (s.setPort p fun h => { h with pointer := i }) t) : Begins p s t :=
      ht.after (by rw [State.setPort_get_self]; rfl) rfl (fun _ _ => rfl) fun _ _ => rfl
    unfold State.eligible at heligible
    split
    · next hlt =>
      rw [dif_pos hlt, Bool.and_eq_true] at heligible
      exact .inr (hafter (State.serveRoute_begins _ p (by simpa using heligible.1) heligible.2))
    · next hlt =>
      rw [dif_neg hlt] at heligible
      rcases (s.setPort p fun h => { h with pointer := i }).serveReread_cases p with ⟨hnil, -⟩ | ⟨-, h⟩
      · have : s.dle.rereads.get p = [] := hnil
        simp [this] at heligible
      · exact .inr (hafter h)

/-- What a port's choice can be: nothing, or a packet begun, where it may choose. -/
theorem State.choose_cases (s : State) (p : Port) : s.choose p = s ∨ s.mayChoose p = true ∧ Begins p s (s.choose p) := by
  unfold State.choose
  dsimp only
  by_cases hc : s.mayChoose p = true
  · rw [if_pos hc]
    split
    · exact .inr ⟨hc, .send s p _ fun h => TxSource.noConfusion h⟩
    · exact .inr ⟨hc, .send s p _ fun h => TxSource.noConfusion h⟩
    · exact (s.continueTile_cases p _).imp id fun h => ⟨hc, h⟩
    · exact (s.serveReread_cases p).imp And.right fun h => ⟨hc, h.2⟩
    · split
      · exact .inl rfl
      · exact (s.serveNext_cases p).imp And.right fun h => ⟨hc, h⟩
  · exact .inl (if_neg hc)

end Sys2Proof.Machine

/-! # One port after a step (R153, R159, R163, R164) -/

namespace Sys2Proof.Machine

/-! ## What a port's choices leave of the other port's sources -/

theorem State.settlePort_records_ne (s : State) (p : Port) (lead : Bool) {r : Fin 8} (hr : (s.dle.routes.get r).port ≠ p) :
    (s.settlePort p lead).dle.records.get r = s.dle.records.get r := by
  have hchosen : (((s.formOpens p).wake p lead).choose p).dle.records.get r = s.dle.records.get r := by
    rw [← s.formOpens_records_ne p hr]
    rcases ((s.formOpens p).wake p lead).choose_cases p with h | ⟨-, h⟩
    · rw [h]; simp
    · rw [h.records r (by simpa using hr)]; simp
  rw [← hchosen]
  simp [State.settlePort]

theorem State.settlePort_rereads_ne (s : State) {p q : Port} (hq : q ≠ p) (lead : Bool) :
    (s.settlePort p lead).dle.rereads.get q = s.dle.rereads.get q := by
  have hchosen : (((s.formOpens p).wake p lead).choose p).dle.rereads.get q = s.dle.rereads.get q := by
    rcases ((s.formOpens p).wake p lead).choose_cases p with h | ⟨-, h⟩
    · rw [h]; simp
    · rw [h.rereads q hq]; simp
  rw [← hchosen]
  simp [State.settlePort]

theorem State.settlePort_sameSources (s : State) {p q : Port} (hq : q ≠ p) (lead : Bool) : SameSources q s (s.settlePort p lead) where
  routes := by simp
  paused := by simp
  records r hr := s.settlePort_records_ne p lead (by rw [hr]; exact hq)
  rereads := s.settlePort_rereads_ne hq lead
  ptk := by simp
  tru := by simp
  lanes := by simp
  frt := by simp
  slm := by simp
  rnc := by simp

/-- After a step each port makes its choices in a state that shows it what the step left: the other port's choices move nothing that it
judges by. -/
theorem State.settle_port (s : State) (lead : Bool) (p : Port) :
    ∃ t : State, (s.settle lead).ports.get p = (t.settlePort p lead).ports.get p ∧ t.ports.get p = s.ports.get p ∧ SameSources p s t
      ∧ t.now = s.now := by
  cases p with
  | a => exact ⟨s, State.settlePort_get_ne _ (by decide) lead, rfl, .refl _ s, rfl⟩
  | b =>
    exact ⟨s.settlePort .a lead, rfl, s.settlePort_get_ne (by decide) lead, s.settlePort_sameSources (by decide) lead, by simp⟩

/-! ## A port that makes no choice -/

section Wake

variable {s : State} {p : Port} {lead : Bool}

/-- A wake leaves a port but for its link, its wake timer and the wake it owes. -/
theorem State.wake_get (s : State) (p : Port) (lead : Bool) :
    ∃ link timer owed, (s.wake p lead).ports.get p = { s.ports.get p with link := link, wakeTimer := timer, wakeOwed := owed }
      ∧ ((s.ports.get p).link ≠ .resting → link = (s.ports.get p).link ∧ timer = (s.ports.get p).wakeTimer)
      ∧ ((s.ports.get p).link = .resting → link ≠ .up) := by
  unfold State.wake State.startWake
  split
  · split
    · next hl => exact ⟨.waking, some s.now, (s.ports.get p).wakeOwed, by rw [State.setPort_get_self], fun h => absurd hl h,
        fun _ h => LinkState.noConfusion h⟩
    · next hl =>
      split
      · exact ⟨_, _, true, by rw [State.setPort_get_self], fun _ => ⟨rfl, rfl⟩, fun h => absurd h hl⟩
      · exact ⟨_, _, _, rfl, fun _ => ⟨rfl, rfl⟩, fun h => absurd h hl⟩
  · exact ⟨_, _, _, rfl, fun _ => ⟨rfl, rfl⟩, fun h hu => LinkState.noConfusion (h.symm.trans hu)⟩

theorem State.wake_idle (hl : (s.ports.get p).link ≠ .resting) (hx : (s.ports.get p).tx = none) : s.wake p lead = s := by
  unfold State.wake
  split
  · exact State.startWake_neither hl fun k => by rw [hx]; exact Option.some_ne_none _ ∘ Eq.symm
  · rfl

theorem State.mayChoose_false (h : (s.ports.get p).link ≠ .up ∨ (s.ports.get p).tx.isSome = true) : s.mayChoose p = false := by
  unfold State.mayChoose
  rcases h with h | h
  · simp [h]
  · cases hx : (s.ports.get p).tx with
    | none => rw [hx] at h; cases h
    | some x => simp

/-- A port that is not UP, or has a packet in transmission, chooses nothing and begins no REST: it may wake, and its idle timer stops. -/
theorem State.settlePort_still (h : (s.ports.get p).link ≠ .up ∨ (s.ports.get p).tx.isSome = true) :
    s.settlePort p lead = ((s.formOpens p).wake p lead).idleAt p none := by
  have hports : (s.formOpens p).ports = s.ports := by simp
  have hstill : (((s.formOpens p).wake p lead).ports.get p).link ≠ .up ∨ (((s.formOpens p).wake p lead).ports.get p).tx.isSome = true := by
    obtain ⟨link, timer, owed, hget, hother, hresting⟩ := (s.formOpens p).wake_get p lead
    rw [hports] at hget hother hresting
    rw [hget]
    refine h.imp (fun hl => ?_) id
    by_cases hr : (s.ports.get p).link = .resting
    · exact hresting hr
    · exact fun hu => hl ((hother hr).1 ▸ hu)
  generalize hw : (s.formOpens p).wake p lead = w at hstill
  have hidle : w.idleUpkeep p = w.idleAt p none := by
    have hno : ¬ ((w.ports.get p).link = .up ∧ (w.ports.get p).tx = none ∧ (w.ports.get p).tile = none ∧ ¬ w.workPresent p = true) := by
      rintro ⟨hl, hx, -⟩
      rcases hstill with h | h
      · exact h hl
      · rw [hx] at h; cases h
    unfold State.idleUpkeep State.idleAt State.setPort
    simp only [if_neg hno]
  unfold State.settlePort
  rw [hw, State.choose, State.mayChoose_false hstill, if_neg Bool.false_ne_true, hidle]
  refine State.judgeRest_stands (.inl fun v hv => ?_)
  rw [State.idleAt, State.setPort_get_self] at hv
  cases hv

end Wake

/-! ## A port that may choose -/

section Free

variable {s : State} {p : Port} {lead : Bool}

/-- A port that is UP with nothing in transmission has no wake to make: the arbiter's choice, the idle timer and R163 follow. -/
theorem State.settlePort_free (hl : (s.ports.get p).link = .up) (hx : (s.ports.get p).tx = none) :
    s.settlePort p lead = (((s.formOpens p).choose p).idleUpkeep p).judgeRest p := by
  have hports : (s.formOpens p).ports = s.ports := by simp
  unfold State.settlePort
  rw [State.wake_idle (by rw [hports, hl]; exact fun h => LinkState.noConfusion h) (by rw [hports]; exact hx)]

/-- A port begins a REST where every rest condition but the idle timer's own is met, and the timer, started if need be, stands at or
beyond the rest delay (R163). -/
def State.restsNow (s : State) (p : Port) : Prop :=
  s.mayRest p ∧ (s.ports.get p).record.restDelay * 100 ≤ s.now - (s.ports.get p).idleTimer.getD s.now

theorem State.judged_rests (h : s.restsNow p) : (s.idleUpkeep p).judgeRest p = (s.resting p).idleAt p none := by
  obtain ⟨hmay, hdelay⟩ := h
  have hready := (s.restReady_iff_mayRest p).mpr hmay
  obtain ⟨-, -, hl, hx, ht, hw, -⟩ := hmay
  have hidle : s.idleUpkeep p = s.idleAt p (some ((s.ports.get p).idleTimer.getD s.now)) := by
    unfold State.idleUpkeep State.idleAt State.setPort
    simp [hl, hx, ht, hw]
  have hport : ((s.idleAt p (some ((s.ports.get p).idleTimer.getD s.now))).ports.get p)
      = { s.ports.get p with idleTimer := some ((s.ports.get p).idleTimer.getD s.now) } := by
    rw [State.idleAt, State.setPort_get_self]
  have hmay' : (s.idleAt p (some ((s.ports.get p).idleTimer.getD s.now))).mayRest p := by
    rwa [← State.restReady_iff_mayRest, State.idleAt_restReady]
  rw [hidle, State.judgeRest_begins (v := (s.ports.get p).idleTimer.getD s.now) (by rw [hport]) (by rw [hport]; exact hdelay) hmay',
    State.beginRest_eq]
  simp only [State.resting, State.idleAt, State.setPort_setPort]

/-- The idle timer runs while the port is UP and idle with nothing to send, and is stopped otherwise (R163). -/
theorem State.idleUpkeep_eq (s : State) (p : Port) : ∃ v, s.idleUpkeep p = s.idleAt p v
    ∧ ∀ t, v = some t → t = (s.ports.get p).idleTimer.getD s.now := by
  by_cases h : (s.ports.get p).link = .up ∧ (s.ports.get p).tx = none ∧ (s.ports.get p).tile = none ∧ ¬ s.workPresent p = true
  · refine ⟨some ((s.ports.get p).idleTimer.getD s.now), ?_, fun t ht => (Option.some.inj ht).symm⟩
    unfold State.idleUpkeep State.idleAt State.setPort
    simp only [if_pos h]
  · refine ⟨none, ?_, fun t ht => absurd ht.symm (Option.some_ne_none t)⟩
    unfold State.idleUpkeep State.idleAt State.setPort
    simp only [if_neg h]

theorem State.judged_stands (h : ¬ s.restsNow p) : ∃ v, (s.idleUpkeep p).judgeRest p = s.idleAt p v := by
  obtain ⟨v, hidle, hv⟩ := s.idleUpkeep_eq p
  rw [hidle]
  have hport : (s.idleAt p v).ports.get p = { s.ports.get p with idleTimer := v } := by rw [State.idleAt, State.setPort_get_self]
  rcases (s.idleAt p v).judgeRest_cases p with hs | ⟨⟨t, ht, hd⟩, hready, -⟩
  · exact ⟨v, hs⟩
  · rw [hport] at ht hd
    rw [State.idleAt_restReady, State.restReady_iff_mayRest] at hready
    rw [hv t ht] at hd
    exact absurd ⟨hready, hd⟩ h

end Free

/-! ## The classes of the arbiter (R159) -/

/-- The arbiter's choice with no reply and no notice to send: the tile in progress, or one unit of a delivery source (R159, R162). -/
def State.serveUnit (s : State) (p : Port) : State :=
  match (s.ports.get p).tile with
  | some (.route r) => s.continueTile p r
  | some .reread => s.serveReread p
  | none => if (s.ports.get p).staged.isSome then s else s.serveNext p

theorem State.mayChoose_of {s : State} {p : Port} (hl : (s.ports.get p).link = .up) (hx : (s.ports.get p).tx = none)
    (hdue : ¬ (p = .a ∧ s.rnc.resetDue = true)) : s.mayChoose p = true := by
  unfold State.mayChoose
  rw [hl, hx]
  have hno : (decide (p = .a) && s.rnc.resetDue) = false := by simpa using hdue
  rw [hno]
  rfl

section Classes

variable {s : State} {p : Port} (hc : s.mayChoose p = true)

theorem State.serveNext_none (h : ∀ i, s.eligible p i = false) : s.serveNext p = s := by
  have hfind : (cyclicFrom (s.ports.get p).pointer).find? (fun i => s.eligible p i) = none :=
    List.find?_eq_none.mpr fun i _ => by rw [h i]; decide
  unfold State.serveNext
  rw [hfind]

include hc

theorem State.choose_reply {k : Packet} (h : (s.ports.get p).replies.head? = some (some k)) : s.choose p = s.send p .reply k := by
  obtain ⟨rest, hr⟩ := List.head?_eq_some_iff.mp h
  unfold State.choose
  rw [if_pos hc]
  dsimp only
  rw [hr]

theorem State.choose_notice {k : Packet} (hr : ∀ k, (s.ports.get p).replies.head? ≠ some (some k))
    (h : (s.ports.get p).notices.head? = some k) : s.choose p = s.send p .notice k := by
  obtain ⟨rest, hn⟩ := List.head?_eq_some_iff.mp h
  unfold State.choose
  rw [if_pos hc]
  dsimp only
  split
  · next j _ hj => exact absurd (by rw [hj]; rfl) (hr j)
  · next j rest' hj _ => cases hn.symm.trans hj; rfl
  · next hj _ _ => cases hn.symm.trans hj
  · next hj _ _ => cases hn.symm.trans hj
  · next hj _ _ => cases hn.symm.trans hj

theorem State.choose_unit (hr : ∀ k, (s.ports.get p).replies.head? ≠ some (some k)) (hn : (s.ports.get p).notices = []) :
    s.choose p = s.serveUnit p := by
  unfold State.choose State.serveUnit
  rw [if_pos hc]
  dsimp only
  split
  · next j _ hj => exact absurd (by rw [hj]; rfl) (hr j)
  · next hj _ => cases hn.symm.trans hj
  · next ht _ => rw [ht]
  · next ht _ => rw [ht]
  · next ht _ => rw [ht]

end Classes

/-- With every rest condition but the idle timer's own met there is nothing to choose. -/
theorem State.choose_of_mayRest {s : State} {p : Port} (h : s.mayRest p) : s.choose p = s := by
  obtain ⟨hdue, -, hl, hx, ht, hw, -⟩ := h
  have hc := State.mayChoose_of hl hx hdue
  unfold State.workPresent at hw
  simp only [Bool.or_eq_false_iff, List.any_eq_false, Bool.not_eq_false', List.isEmpty_iff] at hw
  obtain ⟨⟨hreplies, hnotices⟩, hunits⟩ := hw
  have hnone (i : Fin 9) : s.eligible p i = false := by simpa using hunits i (mem_cyclicFrom _ i)
  rw [State.choose_unit hc (fun k hk => hreplies (some k) (List.mem_of_mem_head? hk) rfl) hnotices, State.serveUnit, ht]
  dsimp only
  split
  · rfl
  · exact State.serveNext_none hnone

end Sys2Proof.Machine

/-! # Rest and wake (R8, R60, R153, R163, R164) -/

namespace Sys2Proof.Machine

section Rest

variable {s : State} {p : Port} {lead : Bool}

/-! ## A REST begun (R163) -/

/-- A port whose rest conditions are all met begins a REST. -/
theorem State.settlePort_rests (hmay : (s.formOpens p).mayRest p) {u : Nat} (hu : (s.ports.get p).idleTimer = some u)
    (hd : (s.ports.get p).record.restDelay * 100 ≤ s.now - u) :
    ((s.settlePort p lead).ports.get p).tx
        = some { source := .rest, packet := { kind := 0x86, stream := 0x80, tag := 0, payload := [] } }
      ∧ ((s.settlePort p lead).ports.get p).wakeOwed = false ∧ ((s.settlePort p lead).ports.get p).idleTimer = none
      ∧ ((s.settlePort p lead).ports.get p).link = .up := by
  have hports : (s.formOpens p).ports = s.ports := by simp
  have hmay' := hmay
  obtain ⟨-, -, hl, hx, -⟩ := hmay
  rw [hports] at hl hx
  have hrests : (s.formOpens p).restsNow p := by
    refine ⟨hmay', ?_⟩
    rw [hports, hu, (s.formOpens_frame p).2.1]
    exact hd
  rw [State.settlePort_free hl hx, State.choose_of_mayRest hmay', State.judged_rests hrests, State.idleAt, State.setPort_get_self,
    State.resting, State.setPort_get_self, hports]
  exact ⟨rfl, rfl, rfl, hl⟩

/-- A REST that is in transmission after a port's choices was so before, where the rest conditions are not met. -/
theorem State.settlePort_no_rest (hmay : ¬ (s.formOpens p).mayRest p) {k : Packet}
    (hk : ((s.settlePort p lead).ports.get p).tx = some { source := .rest, packet := k }) :
    (s.ports.get p).tx = some { source := .rest, packet := k } := by
  have hports : (s.formOpens p).ports = s.ports := by simp
  by_cases hfree : (s.ports.get p).link = .up ∧ (s.ports.get p).tx = none
  · obtain ⟨hl, hx⟩ := hfree
    rw [State.settlePort_free hl hx] at hk
    rcases (s.formOpens p).choose_cases p with hs | ⟨-, hbegins⟩
    · obtain ⟨v, hv⟩ := State.judged_stands (s := s.formOpens p) (p := p) fun h => hmay h.1
      rw [hs, hv, State.idleAt_tx, hports] at hk
      exact hk
    · obtain ⟨x, j, hsends, hne⟩ := hbegins.sends
      obtain ⟨v, hv⟩ := State.judged_stands (s := (s.formOpens p).choose p) (p := p) fun h => by
        have hnone := h.1.2.2.2.1
        rw [hsends] at hnone
        cases hnone
      rw [hv, State.idleAt_tx, hsends] at hk
      cases hk
      exact absurd rfl hne
  · have hstill : (s.ports.get p).link ≠ .up ∨ (s.ports.get p).tx.isSome = true := by
      by_cases hl : (s.ports.get p).link = .up
      · exact .inr (Option.ne_none_iff_isSome.mp fun hx => hfree ⟨hl, hx⟩)
      · exact .inl hl
    obtain ⟨link, timer, owed, hget, -⟩ := (s.formOpens p).wake_get p lead
    rw [State.settlePort_still hstill, State.idleAt_tx, hget, hports] at hk
    exact hk

/-! ## A wake (R164) -/

/-- A wake cause: work present, or a wake-lead test passed at a tick or a change of lane progress (R164). -/
def State.wakeCause (s : State) (p : Port) (lead : Bool) : Prop :=
  s.workPresent p = true ∨ lead = true ∧ s.leadPresent p (s.unpaused p) = true

theorem State.wake_of_cause (h : s.wakeCause p lead) : s.wake p lead = s.startWake p := if_pos h

theorem State.wake_of_none (h : ¬ s.wakeCause p lead) : s.wake p lead = s := if_neg h

/-- A port that is transmitting a REST owes a wake from the first wake cause on (R163). -/
theorem State.settlePort_owes {k : Packet} (hx : (s.ports.get p).tx = some { source := .rest, packet := k })
    (hl : (s.ports.get p).link = .up) :
    ((s.formOpens p).wakeCause p lead → ((s.settlePort p lead).ports.get p).wakeOwed = true)
      ∧ (¬ (s.formOpens p).wakeCause p lead → ((s.settlePort p lead).ports.get p).wakeOwed = (s.ports.get p).wakeOwed) := by
  have hports : (s.formOpens p).ports = s.ports := by simp
  rw [State.settlePort_still (.inr (by rw [hx]; rfl)), State.idleAt, State.setPort_get_self]
  refine ⟨fun h => ?_, fun h => ?_⟩
  · rw [State.wake_of_cause h, State.startWake_sending (by rw [hports, hl]; exact fun h => LinkState.noConfusion h)
      (by rw [hports]; exact hx), State.setPort_get_self]
  · rw [State.wake_of_none h, hports]

/-- A WAKING port with nothing in transmission stays so. -/
theorem State.settlePort_waking (hl : (s.ports.get p).link = .waking) (hx : (s.ports.get p).tx = none) :
    (s.settlePort p lead).ports.get p = { s.ports.get p with idleTimer := none } := by
  have hports : (s.formOpens p).ports = s.ports := by simp
  rw [State.settlePort_still (.inl (by rw [hl]; exact fun h => LinkState.noConfusion h)),
    State.wake_idle (by rw [hports, hl]; exact fun h => LinkState.noConfusion h) (by rw [hports]; exact hx), State.idleAt,
    State.setPort_get_self, hports]

/-- A RESTING port with work present wakes, and otherwise, with no wake-lead test made, rests on. -/
theorem State.settlePort_resting (hl : (s.ports.get p).link = .resting) :
    (s.settlePort p false).ports.get p =
      if (s.formOpens p).workPresent p = true then { s.ports.get p with link := .waking, wakeTimer := some s.now, idleTimer := none }
      else { s.ports.get p with idleTimer := none } := by
  have hports : (s.formOpens p).ports = s.ports := by simp
  rw [State.settlePort_still (.inl (by rw [hl]; exact fun h => LinkState.noConfusion h)), State.idleAt, State.setPort_get_self]
  split
  · next hw =>
    rw [State.wake_of_cause (.inl hw), State.startWake_resting (by rw [hports]; exact hl), State.setPort_get_self, hports,
      (s.formOpens_frame p).2.1]
  · next hw =>
    have hno : ¬ (s.formOpens p).wakeCause p false := by
      rintro (h | ⟨h, -⟩)
      · exact hw h
      · cases h
    rw [State.wake_of_none hno, hports]

end Rest

/-! ## The last byte of a REST (R163) -/

/-- The state at a REST's last byte: counted out, RESTING, with no wake owed any longer. -/
def State.rested (s : State) (p : Port) (k : Packet) : State :=
  (s.finishTx p k).setPort p fun h => { h with link := .resting, wakeOwed := false }

section Sent

variable {s : State} {p : Port} {k : Packet}

theorem exec_restSent (hs : s.pwrOk = true) (hx : (s.ports.get p).tx = some { source := .rest, packet := k }) :
    exec (.restSent p) s = .next
      ((if (s.ports.get p).wakeOwed = true ∨ (s.rested p k).workPresent p = true
          ∨ ¬ ((s.rested p k).ports.get p).record.restEnable = true then (s.rested p k).startWake p else s.rested p k).settle false) := by
  have harm : exec (.restSent p) s = execRestSent p s := rfl
  rw [harm, execRestSent, State.whenPowered_high _ _ hs, hx]
  rfl

theorem State.rested_get (s : State) (p : Port) (k : Packet) :
    (s.rested p k).ports.get p = { s.ports.get p with tx := none, link := .resting, wakeOwed := false } := by
  rw [State.rested, State.setPort_get_self, State.finishTx]
  simp [State.countPort]

theorem State.rested_sameSources (s : State) (p : Port) (k : Packet) : SameSources p s (s.rested p k) :=
  .of_blocks (by simp [State.rested]) (by simp [State.rested]) (by simp [State.rested]) (by simp [State.rested])
    (by simp [State.rested]) (by simp [State.rested]) (by simp [State.rested])

/-- At a REST's last byte the port is WAKING where a wake is owed, work is present or rest enable is clear, and otherwise RESTING. -/
theorem State.restSent_port (hl : (s.ports.get p).link = .up) {w t : State}
    (hw : w = if (s.ports.get p).wakeOwed = true ∨ (s.rested p k).workPresent p = true
          ∨ ¬ ((s.rested p k).ports.get p).record.restEnable = true then (s.rested p k).startWake p else s.rested p k)
    (hport : t.ports.get p = w.ports.get p) (hsight : SameSources p w t) (hnow : t.now = w.now) :
    ((t.settlePort p false).ports.get p).tx = none
      ∧ (((s.ports.get p).wakeOwed = true ∨ (s.formOpens p).wakeCause p false ∨ (s.ports.get p).record.restEnable = false) →
          ((t.settlePort p false).ports.get p).link = .waking ∧ ((t.settlePort p false).ports.get p).wakeTimer = some s.now)
      ∧ ((s.ports.get p).wakeOwed = false → ¬ (s.formOpens p).wakeCause p false → (s.ports.get p).record.restEnable = true →
          ((t.settlePort p false).ports.get p).link = .resting) := by
  have hget := s.rested_get p k
  have hcause : (s.formOpens p).wakeCause p false ↔ (s.formOpens p).workPresent p = true := by simp [State.wakeCause]
  have hrestednow : (s.rested p k).now = s.now := by simp [State.rested]
  have hresting : ((s.rested p k).ports.get p).link = .resting := by rw [hget]
  by_cases hwakes : (s.ports.get p).wakeOwed = true ∨ (s.rested p k).workPresent p = true
      ∨ ¬ ((s.rested p k).ports.get p).record.restEnable = true
  · rw [if_pos hwakes, State.startWake_resting hresting] at hw
    have hthen : t.ports.get p = { s.ports.get p with tx := none, link := .waking, wakeOwed := false, wakeTimer := some s.now } := by
      rw [hport, hw, State.setPort_get_self, hget, hrestednow]
    rw [State.settlePort_waking (by rw [hthen]) (by rw [hthen]), hthen]
    refine ⟨rfl, fun _ => ⟨rfl, rfl⟩, fun howed hno hrest => ?_⟩
    rcases hwakes with h | h | h
    · rw [howed] at h; cases h
    · refine absurd (hcause.mpr ?_) hno
      have hforms := ((s.rested_sameSources p k).formOpens (by rw [hresting, hl]; decide)).workPresent (by simp [hget]) (by simp [hget])
        (by simp [hget])
      rw [← hforms]
      exact State.formOpens_workPresent _ p h
    · rw [hget] at h; exact absurd hrest h
  · rw [if_neg hwakes] at hw
    obtain ⟨howed, -, hrest⟩ := by simpa only [not_or, not_not] using hwakes
    have hthen : t.ports.get p = { s.ports.get p with tx := none, link := .resting, wakeOwed := false } := by rw [hport, hw, hget]
    have hsame : SameSources p s t := (s.rested_sameSources p k).trans (hw ▸ hsight)
    have hforms := (hsame.formOpens (by simp [hthen, hl])).workPresent (by simp [hthen]) (by simp [hthen]) (by simp [hthen])
    have htime : t.now = s.now := by rw [hnow, hw, hrestednow]
    rw [State.settlePort_resting (by rw [hthen]), hforms, hthen, htime]
    rw [hget] at hrest
    by_cases hwork : (s.formOpens p).workPresent p = true
    · rw [if_pos hwork]
      exact ⟨rfl, fun _ => ⟨rfl, rfl⟩, fun _ hno _ => absurd (hcause.mpr hwork) hno⟩
    · rw [if_neg hwork]
      refine ⟨rfl, fun h => ?_, fun _ _ _ => rfl⟩
      rcases h with h | h | h
      · exact absurd h howed
      · exact absurd (hcause.mp h) hwork
      · rw [hrest] at h; cases h

/-- What the last byte of a REST leaves, before the ports' choices. -/
theorem State.restSent_rest {w : State}
    (hw : w = if (s.ports.get p).wakeOwed = true ∨ (s.rested p k).workPresent p = true
          ∨ ¬ ((s.rested p k).ports.get p).record.restEnable = true then (s.rested p k).startWake p else s.rested p k) :
    s.sameCapture w ∧ w.dle = s.dle ∧ w.rnc = s.rnc
      ∧ (w.ntu.counters.ports.get p).packetsOut = min 4294967295 ((s.ntu.counters.ports.get p).packetsOut + 1)
      ∧ (s.ports.get p).sameQueues (w.ports.get p) := by
  have hresting : ((s.rested p k).ports.get p).link = .resting := by rw [s.rested_get p k]
  have hsent := s.finishTx_sentBy p k
  have hcount : ((s.rested p k).ntu.counters.ports.get p).packetsOut
      = min 4294967295 ((s.ntu.counters.ports.get p).packetsOut + 1) := by
    rw [← hsent.2.2.2.1]; simp [State.rested]
  have hwaking : (s.rested p k).startWake p = (s.rested p k).setPort p fun h => { h with link := .waking, wakeTimer := some (s.rested p k).now } :=
    State.startWake_resting hresting
  have hkeeps : (s.ports.get p).sameQueues ((s.rested p k).ports.get p) := by
    rw [s.rested_get p k]; exact ⟨rfl, rfl, rfl, rfl, rfl⟩
  have hblocks : s.sameCapture (s.rested p k) ∧ (s.rested p k).dle = s.dle ∧ (s.rested p k).rnc = s.rnc := by
    simp [State.sameCapture, State.rested]
  rw [hw]
  split
  · rw [hwaking]
    exact ⟨hblocks.1, hblocks.2.1, hblocks.2.2, hcount,
      by rw [State.setPort_get_self]; exact hkeeps⟩
  · exact ⟨hblocks.1, hblocks.2.1, hblocks.2.2, hcount, hkeeps⟩

end Sent

/-! ## Where the wake-lead test is made (R8, R60, R164) -/

/-- A count, a lane link loss and a lane packet: the test is made at a tick handed on and where lane progress has changed. -/
theorem exec_lead {s : State} (hs : s.pwrOk = true) (p : Port) {c : Instr}
    (hc : (∃ line, c = .count line) ∨ (∃ l, c = .laneLinkLoss l) ∨ ∃ l bytes, c = .lanePacketReceived l bytes) :
    ∃ (t : State) (lead : Bool), exec c s = .next (t.settle lead)
      ∧ (lead = true ↔ s.movesProgress t ∨ (∃ line, c = .count line) ∧ s.rnc.runState ≠ .config ∧ s.ptk.high < t.ptk.high)
      ∧ (t.ports.get p).link = (s.ports.get p).link ∧ (t.ports.get p).wakeOwed = (s.ports.get p).wakeOwed := by
  have hmoved (t : State) (hno : ¬ ∃ line, c = .count line) :
      s.progressMoved t = true ↔ s.movesProgress t ∨ (∃ line, c = .count line) ∧ s.rnc.runState ≠ .config ∧ s.ptk.high < t.ptk.high :=
    (s.progressMoved_iff t).trans (or_iff_left fun h => hno h.1).symm
  rcases hc with ⟨line, rfl⟩ | ⟨l, rfl⟩ | ⟨l, bytes, rfl⟩
  · refine ⟨s.takeCount line, decide (s.rnc.runState ≠ .config ∧ s.ptk.high < (s.takeCount line).ptk.high)
      || s.progressMoved (s.takeCount line), ?_, ?_, State.link_of_quiet (s.takeCount_quiet line) p⟩
    · have harm : exec (.count line) s = execCount line s := rfl
      rw [harm, execCount, State.whenPowered_high _ _ hs]
    · rw [Bool.or_eq_true, decide_eq_true_eq, s.progressMoved_iff]
      exact or_comm.trans (or_congr_right ⟨fun h => ⟨⟨line, rfl⟩, h⟩, And.right⟩)
  · refine ⟨s.laneLost l, s.progressMoved (s.laneLost l), ?_, hmoved _ ?_, State.link_of_quiet (s.laneLost_quiet l) p⟩
    · rw [exec_laneLinkLoss hs]; rfl
    · rintro ⟨line, h⟩; cases h
  · have hports : (s.receiveLane l bytes).progressed.quiet = s.quiet := State.quiet_of_ports (by simp)
    refine ⟨(s.receiveLane l bytes).progressed, s.progressMoved (s.receiveLane l bytes).progressed, ?_, hmoved _ ?_,
      State.link_of_quiet hports p⟩
    · have harm : exec (.lanePacketReceived l bytes) s = execLanePacketReceived l bytes s := rfl
      rw [harm, execLanePacketReceived, State.whenPowered_high _ _ hs]
      rfl
    · rintro ⟨line, h⟩; cases h

/-! ## The steps -/

section Steps

variable {s : State} (hs : s.pwrOk = true) (p : Port)
include hs

theorem exec_idleTimerExpiry {u : Nat} (hu : (s.ports.get p).idleTimer = some u) :
    exec (.idleTimerExpiry p) s = .next ((s.advanceTo (u + (s.ports.get p).record.restDelay * 100)).settle false) := by
  have harm : exec (.idleTimerExpiry p) s = execIdleTimerExpiry p s := rfl
  rw [harm, execIdleTimerExpiry, State.whenPowered_high _ _ hs]
  dsimp only
  rw [hu]
  rfl

theorem exec_idleTimerExpiry_idle (hu : (s.ports.get p).idleTimer = none) : exec (.idleTimerExpiry p) s = .next s := by
  have harm : exec (.idleTimerExpiry p) s = execIdleTimerExpiry p s := rfl
  rw [harm, execIdleTimerExpiry, State.whenPowered_high _ _ hs]
  dsimp only
  rw [hu]

theorem exec_wakeTimerExpiry {u : Nat} (hl : (s.ports.get p).link = .waking) (hu : (s.ports.get p).wakeTimer = some u) :
    exec (.wakeTimerExpiry p) s = .next (State.settle
      ((s.advanceTo (u + 2000)).setPort p fun h => { h with link := .up, wakeTimer := none }) false) := by
  have harm : exec (.wakeTimerExpiry p) s = execWakeTimerExpiry p s := rfl
  rw [harm, execWakeTimerExpiry, State.whenPowered_high _ _ hs, hl, hu]
  rfl

theorem exec_wakeTimerExpiry_idle (hno : (s.ports.get p).link ≠ .waking ∨ (s.ports.get p).wakeTimer = none) :
    exec (.wakeTimerExpiry p) s = .next s := by
  have harm : exec (.wakeTimerExpiry p) s = execWakeTimerExpiry p s := rfl
  rw [harm, execWakeTimerExpiry, State.whenPowered_high _ _ hs]
  split
  · next hl hu =>
    rcases hno with h | h
    · exact absurd hl h
    · cases hu.symm.trans h
  · rfl

end Steps

/-- After the idle timer's expiry, or any step that has only let time pass, a port begins a REST where its rest conditions are met. -/
theorem State.settle_rests {s w : State} {p : Port} (hw : SameSources p s w) (hports : w.ports = s.ports) {u : Nat}
    (hu : (s.ports.get p).idleTimer = some u) (hd : u + (s.ports.get p).record.restDelay * 100 ≤ w.now) :
    ((s.formOpens p).mayRest p →
        ((w.settle false).ports.get p).tx
            = some { source := .rest, packet := { kind := 0x86, stream := 0x80, tag := 0, payload := [] } }
          ∧ ((w.settle false).ports.get p).wakeOwed = false ∧ ((w.settle false).ports.get p).idleTimer = none
          ∧ ((w.settle false).ports.get p).link = .up)
      ∧ (¬ (s.formOpens p).mayRest p → ∀ k, ((w.settle false).ports.get p).tx = some { source := .rest, packet := k } →
          (s.ports.get p).tx = ((w.settle false).ports.get p).tx) := by
  obtain ⟨t, hget, hport, hsight, hnow⟩ := w.settle_port false p
  rw [hports] at hport
  have hmay : (t.formOpens p).mayRest p ↔ (s.formOpens p).mayRest p :=
    ((hw.trans hsight).formOpens (by rw [hport])).mayRest (by simp [hport])
  rw [hget]
  refine ⟨fun h => State.settlePort_rests (hmay.mpr h) (by rw [hport]; exact hu) ?_, fun h k hk => ?_⟩
  · rw [hport, hnow]; omega
  · rw [hk, ← hport]
    exact State.settlePort_no_rest (fun h' => h (hmay.mp h')) hk

/-- What the step of a REST's last byte does. -/
theorem exec_restSent_spec {s : State} {p : Port} {k : Packet} (hs : s.pwrOk = true)
    (hx : (s.ports.get p).tx = some { source := .rest, packet := k }) (hl : (s.ports.get p).link = .up) :
    ∃ t : State, exec (.restSent p) s = .next t
      ∧ (t.ports.get p).tx = none ∧ s.sameCapture t ∧ s.sameDelivery t ∧ t.rnc = s.rnc ∧ (s.ports.get p).sameQueues (t.ports.get p)
      ∧ (t.ntu.counters.ports.get p).packetsOut = min 4294967295 ((s.ntu.counters.ports.get p).packetsOut + 1)
      ∧ (((s.ports.get p).wakeOwed = true ∨ (s.formOpens p).wakeCause p false ∨ (s.ports.get p).record.restEnable = false) →
          (t.ports.get p).link = .waking ∧ (t.ports.get p).wakeTimer = some s.now)
      ∧ ((s.ports.get p).wakeOwed = false → ¬ (s.formOpens p).wakeCause p false → (s.ports.get p).record.restEnable = true →
          (t.ports.get p).link = .resting) := by
  have hexec := exec_restSent hs hx
  generalize hw : (if (s.ports.get p).wakeOwed = true ∨ (s.rested p k).workPresent p = true
    ∨ ¬ ((s.rested p k).ports.get p).record.restEnable = true then (s.rested p k).startWake p else s.rested p k) = w at hexec
  obtain ⟨t, hget, hport, hsight, hnow⟩ := w.settle_port false p
  obtain ⟨hfree, hwakes, hrests⟩ := State.restSent_port hl hw.symm hport hsight hnow
  obtain ⟨hblocks, hdle, hrnc, hcount, g1, g2, g3, g4, g5⟩ := State.restSent_rest hw.symm
  obtain ⟨h1, h2, h3, h4, h5⟩ := w.settle_queues false p
  refine ⟨w.settle false, hexec, by rw [hget]; exact hfree, ?_, State.sameDelivery_settle (State.sameDelivery_of_dle hdle) false, ?_,
    ⟨h1.trans g1, h2.trans g2, h3.trans g3, h4.trans g4, h5.trans g5⟩, ?_, by rw [hget]; exact hwakes, by rw [hget]; exact hrests⟩
  · simpa only [State.sameCapture, State.settle_frame] using hblocks
  · simpa only [State.settle_frame] using hrnc
  · simpa only [State.settle_frame] using hcount

/-- Settles O52: the idle timer, the wake-lead test, the last byte of a REST, the wake timer, and the wake a REST owes. -/
theorem portsRestAndWake : Obligations.PortsRestAndWake := by
  intro s p hs comesUp
  refine ⟨fun u hu => ?_, fun hu => exec_idleTimerExpiry_idle hs p hu, fun c hc => exec_lead hs p hc, fun k hx hl => exec_restSent_spec hs hx hl,
    fun u hl hu => exec_wakeTimerExpiry hs p hl hu, fun hno => exec_wakeTimerExpiry_idle hs p hno,
    fun k lead hx hl => State.settlePort_owes hx hl⟩
  have hsight : SameSources p s (s.advanceTo (u + (s.ports.get p).record.restDelay * 100)) := .of_blocks rfl rfl rfl rfl rfl rfl rfl
  obtain ⟨hrests, hno⟩ := State.settle_rests hsight rfl hu (le_max_right s.now _)
  have hqueues := State.sameQueues_settle (s := s) (t := s.advanceTo (u + (s.ports.get p).record.restDelay * 100)) rfl false p
  have hdelivery := State.sameDelivery_settle (s := s) (t := s.advanceTo (u + (s.ports.get p).record.restDelay * 100))
    (State.sameDelivery_of_dle rfl) false
  refine ⟨(s.advanceTo (u + (s.ports.get p).record.restDelay * 100)).settle false, exec_idleTimerExpiry hs p hu, ?_, hrests, hno, ?_,
    hdelivery, ?_, ?_, hqueues⟩ <;> simp [State.sameCapture]

end Sys2Proof.Machine

/-! # What the ports do after a command (R127, R130 to R134, R141, R145, R147, R153, R159, R160, R162, R163) -/

namespace Sys2Proof.Machine

/-! ## A port that is UP (R159, R163) -/

theorem State.choose_unchosen (s : State) (p : Port) : ((s.choose p).ports.get p).unchosen = (s.ports.get p).unchosen := by
  rcases s.choose_cases p with h | ⟨-, h⟩
  · rw [h]
  · exact h.port

/-- What the arbiter does not move at its port. -/
theorem HostPort.of_unchosen {h k : HostPort} (e : k.unchosen = h.unchosen) :
    k.record = h.record ∧ k.idleTimer = h.idleTimer ∧ k.link = h.link :=
  ⟨by simpa [HostPort.unchosen] using congrArg HostPort.record e, by simpa [HostPort.unchosen] using congrArg HostPort.idleTimer e,
    by simpa [HostPort.unchosen] using congrArg HostPort.link e⟩

/-- An UP port makes the arbiter's choice, and then begins a REST where its conditions are met. -/
theorem State.settlePort_up (s : State) (p : Port) (lead : Bool) (hl : (s.ports.get p).link = .up) :
    (((s.formOpens p).choose p).restsNow p → ((s.settlePort p lead).ports.get p).tx =
        some { source := .rest, packet := { kind := 0x86, stream := 0x80, tag := 0, payload := [] } })
      ∧ (¬ ((s.formOpens p).choose p).restsNow p →
          ((s.settlePort p lead).ports.get p).tx = (((s.formOpens p).choose p).ports.get p).tx)
      ∧ ((s.settlePort p lead).ports.get p).tile = (((s.formOpens p).choose p).ports.get p).tile
      ∧ ((s.settlePort p lead).ports.get p).pointer = (((s.formOpens p).choose p).ports.get p).pointer
      ∧ (s.settlePort p lead).dle = ((s.formOpens p).choose p).dle := by
  have hports : (s.formOpens p).ports = s.ports := by simp
  cases hx : (s.ports.get p).tx with
  | none =>
    rw [State.settlePort_free hl hx]
    generalize (s.formOpens p).choose p = u
    by_cases hrests : u.restsNow p
    · rw [State.judged_rests hrests]
      refine ⟨fun _ => ?_, fun h => absurd hrests h, ?_, ?_, rfl⟩ <;> simp [State.resting]
    · obtain ⟨v, hv⟩ := State.judged_stands hrests
      rw [hv]
      exact ⟨fun h => absurd h hrests, fun _ => by simp, by simp, by simp, rfl⟩
  | some x =>
    have hsome : (s.ports.get p).tx.isSome = true := by rw [hx]; rfl
    have hno : (s.formOpens p).choose p = s.formOpens p := by
      rw [State.choose, State.mayChoose_false (.inr (by rw [hports]; exact hsome)), if_neg Bool.false_ne_true]
    obtain ⟨link, timer, owed, hget, -⟩ := (s.formOpens p).wake_get p lead
    rw [hno, State.settlePort_still (.inr hsome), State.idleAt_tx, State.idleAt_tile, State.idleAt_pointer, hget]
    refine ⟨fun h => ?_, fun _ => rfl, rfl, rfl, by simp⟩
    have hnone := h.1.2.2.2.1
    rw [hports, hx] at hnone
    cases hnone

/-- A port that is DOWN stays DOWN and begins nothing, and a packet in transmission is not replaced. -/
theorem State.settlePort_keeps (s : State) (p : Port) (lead : Bool) :
    ((s.ports.get p).link = .down → ((s.settlePort p lead).ports.get p).link = .down
        ∧ ((s.settlePort p lead).ports.get p).tx = (s.ports.get p).tx)
      ∧ ((s.ports.get p).tx.isSome = true → ((s.settlePort p lead).ports.get p).tx = (s.ports.get p).tx) := by
  have hports : (s.formOpens p).ports = s.ports := by simp
  obtain ⟨link, timer, owed, hget, hother, -⟩ := (s.formOpens p).wake_get p lead
  rw [hports] at hget hother
  refine ⟨fun hd => ?_, fun hx => ?_⟩
  · have hup : (s.ports.get p).link ≠ .up := by rw [hd]; exact fun h => LinkState.noConfusion h
    have hresting : (s.ports.get p).link ≠ .resting := by rw [hd]; exact fun h => LinkState.noConfusion h
    rw [State.settlePort_still (.inl hup), State.idleAt_tx, State.idleAt_link, hget]
    exact ⟨(hother hresting).1.trans hd, rfl⟩
  · rw [State.settlePort_still (.inr hx), State.idleAt_tx, hget]

/-! ## FRAME_OPENs formed (R127, R130) -/

theorem State.routesOf_nodup (s : State) (p : Port) : (s.routesOf p).Nodup := indices_nodup.filter _

theorem State.mem_routesOf (s : State) (p : Port) (r : Fin 8) : r ∈ s.routesOf p ↔ (s.dle.routes.get r).port = p := by
  simp [State.routesOf, mem_indices]

section Forms

variable (s : State) {q r : Fin 8} (hqr : r ≠ q)
include hqr

/-- What forms on a route turns on no other route's records. -/
theorem State.setRecord_formOpen (a : Nat) (f : Delivery → Delivery) :
    ((s.setRecord q a f).formOpen r).dle.records.get r = (s.formOpen r).dle.records.get r := by
  have hrecords : (s.setRecord q a f).dle.records.get r = s.dle.records.get r := by rw [State.setRecord_get, if_neg hqr]
  have hcurrent : (s.setRecord q a f).current r = s.current r := by rw [State.current, hrecords]; rfl
  have hplan (d : Delivery) : (s.setRecord q a f).openPlan r d = s.openPlan r d := rfl
  have hpaused : (s.setRecord q a f).dle.paused = s.dle.paused := rfl
  have hmap (u : State) (b : Nat) (g : Delivery → Delivery) :
      (u.setRecord r b g).dle.records.get r = (u.dle.records.get r).map fun d => if d.alloc = b then g d else d :=
    (u.setRecord_get r r b g).trans (if_pos rfl)
  unfold State.formOpen
  rw [hcurrent]
  cases s.current r with
  | none => exact hrecords
  | some d =>
    dsimp only
    rw [hplan, hpaused]
    by_cases hforms : d.state = .pending ∧ d.opening = none ∧ ¬ s.dle.paused.getLsbD r.val
    · rw [if_pos hforms, if_pos hforms]
      cases s.openPlan r d with
      | none => exact hrecords
      | some plan =>
        dsimp only
        rw [hmap, hmap, hrecords]
        rfl
    · rw [if_neg hforms, if_neg hforms]; exact hrecords

theorem State.formOpen_formOpen : ((s.formOpen q).formOpen r).dle.records.get r = (s.formOpen r).dle.records.get r := by
  rcases s.formOpen_cases q with h | ⟨d, plan, -, -, -, -, -, h⟩ <;> rw [h]
  exact s.setRecord_formOpen hqr _ _

end Forms

theorem foldl_formOpen_mem (rs : List (Fin 8)) (hnodup : rs.Nodup) {r : Fin 8} (hr : r ∈ rs) (s : State) :
    (rs.foldl State.formOpen s).dle.records.get r = (s.formOpen r).dle.records.get r := by
  induction rs generalizing s with
  | nil => cases hr
  | cons q rs ih =>
    obtain ⟨hq, hrest⟩ := List.nodup_cons.mp hnodup
    rw [List.foldl_cons]
    by_cases hrq : r = q
    · subst hrq
      exact foldl_formOpen_ne rs hq _
    · rw [ih hrest ((List.mem_cons.mp hr).resolve_left hrq), State.formOpen_formOpen _ hrq]

/-- On a port that is not DOWN every route forms what it can. -/
theorem State.formOpens_records (s : State) (p : Port) {r : Fin 8} (hl : (s.ports.get p).link ≠ .down)
    (hr : (s.dle.routes.get r).port = p) : (s.formOpens p).dle.records.get r = (s.formOpen r).dle.records.get r := by
  unfold State.formOpens
  rw [if_neg hl]
  exact foldl_formOpen_mem _ (s.routesOf_nodup p) ((s.mem_routesOf p r).mpr hr) s

theorem State.earlyOpen_iff (s : State) (x : Slot) (plan : Plan) : s.earlyOpen x plan = true ↔
    (∃ c n rest, plan.bandTiles x.geometry = (c, n) :: rest ∧ 0 < x.ready.count (layerSide n) c)
      ∧ ∀ l, (s.lanes.get l).record.enable = true → x.start ≤ s.effective s.ptk.high l := by
  unfold State.earlyOpen State.allReached
  cases plan.bandTiles x.geometry with
  | nil => simp
  | cons tile rest => obtain ⟨c, n⟩ := tile; simp [s.mem_enabledLanes]

theorem State.openPlan_of_sendable {s : State} {r : Fin 8} {d : Delivery}
    (h : s.openSendable r (s.slot d.slot) (planOf (s.dle.routes.get r) (s.slot d.slot).geometry)) :
    s.openPlan r d = some (planOf (s.dle.routes.get r) (s.slot d.slot).geometry) :=
  if_pos (h.imp id fun ⟨he, hopen⟩ => ⟨he, (s.earlyOpen_iff _ _).mpr hopen⟩)

theorem State.openPlan_of_not_sendable {s : State} {r : Fin 8} {d : Delivery}
    (h : ¬ s.openSendable r (s.slot d.slot) (planOf (s.dle.routes.get r) (s.slot d.slot).geometry)) : s.openPlan r d = none :=
  if_neg fun hx => h (hx.imp id fun ⟨he, hopen⟩ => ⟨he, (s.earlyOpen_iff _ _).mp hopen⟩)

theorem frameOpenPacket_isFrameOpen (r : Fin 8) (early : Bool) (x : Slot) (plan : Plan) :
    (frameOpenPacket r early x plan).isFrameOpen r early x plan := by
  refine ⟨rfl, rfl, ?_⟩
  have hbit : bits [early] = early.toNat := by cases early <;> rfl
  rw [frameOpenPacket, hbit]

/-- The FRAME_OPEN of a route's current frame is formed once it is sendable, and not before. -/
theorem State.formOpens_forms (s : State) (p : Port) (r : Fin 8) (d : Delivery) (hl : (s.ports.get p).link ≠ .down)
    (hr : (s.dle.routes.get r).port = p) (hd : s.current r = some d) (hrec : s.recordOf r d.alloc = some d) :
    let plan := planOf (s.dle.routes.get r) (s.slot d.slot).geometry
    let forms := d.state = .pending ∧ d.opening = none ∧ s.dle.paused.getLsbD r.val = false ∧ s.openSendable r (s.slot d.slot) plan
    (forms → ∃ k, k.isFrameOpen r (s.dle.routes.get r).early (s.slot d.slot) plan
        ∧ (s.formOpens p).recordOf r d.alloc = some { d with plan := some plan, opening := some k })
      ∧ (¬ forms → (s.formOpens p).dle.records.get r = s.dle.records.get r) := by
  intro plan forms
  have hrecords := s.formOpens_records p hl hr
  refine ⟨fun ⟨hp, ho, hpaused, hsend⟩ => ⟨_, frameOpenPacket_isFrameOpen r _ _ _, ?_⟩, fun hno => ?_⟩
  · have hform : s.formOpen r = s.setRecord r d.alloc fun y =>
        { y with plan := some plan, opening := some (frameOpenPacket r (s.dle.routes.get r).early (s.slot d.slot) plan) } := by
      unfold State.formOpen
      rw [hd]
      dsimp only
      rw [if_pos ⟨hp, ho, by rw [hpaused]; decide⟩, State.openPlan_of_sendable hsend]
    have hthen : (s.formOpen r).recordOf r d.alloc = some { d with
        plan := some plan, opening := some (frameOpenPacket r (s.dle.routes.get r).early (s.slot d.slot) plan) } := by
      rw [hform, State.recordOf_setRecord, if_pos ⟨rfl, rfl⟩, hrec]
      · rfl
      · exact fun _ => rfl
    rw [State.recordOf, hrecords]
    exact hthen
  · rw [hrecords]
    rcases s.formOpen_cases r with h | ⟨e, plan', he, hp, ho, hpaused, hplan, -⟩
    · rw [h]
    · cases hd.symm.trans he
      refine absurd ⟨hp, ho, hpaused, ?_⟩ hno
      by_contra hsend
      rw [State.openPlan_of_not_sendable hsend] at hplan
      cases hplan

/-! ## What a route offers (R131, R132, R141, R145) -/

section Offers

variable {s : State} {r : Fin 8} {d : Delivery} (hd : s.current r = some d)
include hd

/-- The next unit of an OPENED record with no tile open: a tile, or the FRAME_END COMPLETE after the last. -/
theorem State.offer_next (ho : d.state = .opened) (ht : d.tileOpen = false) (hv : d.revoke = false)
    (hp : s.dle.paused.getLsbD r.val = false) : s.offer r = s.offerNext d := by
  unfold State.offer
  rw [hd]
  simp [-BitVec.getLsbD_eq_getElem, ho, ht, hv, hp]

theorem State.offer_spec :
    (d.state = .opened → d.tileOpen = true → s.offer r = none)
      ∧ (d.state = .opened → d.tileOpen = false → d.revoke = true → s.offer r = some (.frameEnd true))
      ∧ (d.state = .pending → d.revoke = true → s.offer r = none)
      ∧ (d.revoke = false → s.dle.paused.getLsbD r.val = true → s.offer r = none)
      ∧ (d.state = .pending → d.revoke = false → s.dle.paused.getLsbD r.val = false → s.offer r = d.opening.map .frameOpen) := by
  unfold State.offer
  rw [hd]
  refine ⟨fun ho ht => ?_, fun ho ht hv => ?_, fun ho hv => ?_, fun hv hp => ?_, fun ho hv hp => ?_⟩
  · simp [ho, ht]
  · simp [ho, ht, hv]
  · simp [ho, hv]
  · simp [hv, hp]
  · simp [-BitVec.getLsbD_eq_getElem, ho, hv, hp]

end Offers

theorem State.offerNext_spec (s : State) {d : Delivery} {plan : Plan} (hplan : d.plan = some plan) :
    ((plan.bandTiles (s.slot d.slot).geometry).length ≤ d.cursor.index →
        s.offerNext d = if (s.slot d.slot).rowCount.isSome then some (.frameEnd false) else none)
      ∧ ∀ c n, (plan.bandTiles (s.slot d.slot).geometry)[d.cursor.index]? = some (c, n) →
        ((s.slot d.slot).rowCount = none →
            s.offerNext d = if d.cursor.band < (s.slot d.slot).ready.count (layerSide n) c then some (.tile c n) else none)
          ∧ ∀ rows, (s.slot d.slot).rowCount = some rows →
            s.offerNext d = some (if d.cursor.band < (s.slot d.slot).geometry.bands rows then .tile c n else .frameEnd false) := by
  unfold State.offerNext
  rw [hplan]
  refine ⟨fun hlen => ?_, fun c n htile => ⟨fun hopen => ?_, fun rows hrows => ?_⟩⟩
  · dsimp only
    rw [List.getElem?_eq_none hlen]
    rfl
  · dsimp only
    rw [htile]
    simp [Slot.isClosed, hopen]
  · dsimp only
    rw [htile]
    simp only [Slot.isClosed, Slot.bandCount, hrows, Option.isSome_some, if_true, Option.getD_some]
    split <;> rfl

end Sys2Proof.Machine

/-! # The packets a port begins (R131 to R134, R145, R147, R159, R160) -/

namespace Sys2Proof.Machine

/-! ## The sources of a port in cyclic order (R160) -/

theorem State.eligible_iff (s : State) (p : Port) (i : Fin 9) : s.eligible p i = true ↔ s.hasUnit p i := by
  unfold State.eligible State.hasUnit
  split
  · next hi =>
    have hne : i ≠ 8 := fun h => by subst h; exact absurd hi (by decide)
    simp only [Bool.and_eq_true, decide_eq_true_eq, hne, false_and, or_false, Option.isSome_iff_ne_none]
    refine ⟨fun h => ⟨⟨i.val, hi⟩, rfl, h⟩, ?_⟩
    rintro ⟨r, hr, h⟩
    obtain rfl : r = ⟨i.val, hi⟩ := Fin.ext hr
    exact h
  · next hi =>
    have hlast : i = 8 := Fin.ext (Nat.le_antisymm (Nat.le_of_lt_succ i.isLt) (Nat.not_lt.mp hi))
    have hno : ¬ ∃ r : Fin 8, r.val = i.val ∧ (s.dle.routes.get r).port = p ∧ s.offer r ≠ none :=
      fun ⟨r, hr, _⟩ => hi (hr ▸ r.isLt)
    rw [or_iff_right hno]
    simp [hlast]

theorem cyclicFrom_getElem? (pointer : Fin 9) {m : Nat} (hm : m < 9) :
    ∃ i : Fin 9, (cyclicFrom pointer)[m]? = some i ∧ i.val = (pointer.val + (m + 1)) % 9 := by
  refine ⟨pointer + 1 + Fin.ofNat 9 m, by simp [cyclicFrom, hm], ?_⟩
  simp only [Fin.val_add, Fin.val_ofNat, Fin.val_one]
  omega

/-- The first eligible source after the pointer is the one that is served. -/
theorem State.firstAfter_find {s : State} {p : Port} {pointer i : Fin 9} (h : s.firstAfter p pointer i) :
    (cyclicFrom pointer).find? (fun j => s.eligible p j) = some i := by
  obtain ⟨n, hn, hle, hi, hunit, hbefore⟩ := h
  rw [List.find?_eq_some_iff_getElem]
  have hlen : (cyclicFrom pointer).length = 9 := by simp [cyclicFrom]
  have hat (m : Nat) (hm : m < (cyclicFrom pointer).length) : ((cyclicFrom pointer)[m]).val = (pointer.val + (m + 1)) % 9 := by
    obtain ⟨j, hj, hv⟩ := cyclicFrom_getElem? pointer (hlen ▸ hm)
    rw [List.getElem?_eq_getElem hm] at hj
    rw [Option.some.inj hj, hv]
  refine ⟨(s.eligible_iff p i).mpr hunit, n - 1, by omega, Fin.ext ?_, fun m hm => ?_⟩
  · rw [hat, hi]
    congr 2
    omega
  · have hno := hbefore (m + 1) (by omega) (by omega) ((cyclicFrom pointer)[m]) (hat m _)
    simpa using fun he => hno ((s.eligible_iff p _).mp he)

section Serve

variable {s : State} {p : Port}

/-- The state in which the source served is the pointer's. -/
def State.pointing (s : State) (p : Port) (i : Fin 9) : State := s.setPort p fun h => { h with pointer := i }

theorem State.serveNext_route {i : Fin 9} {r : Fin 8} (h : s.firstAfter p (s.ports.get p).pointer i) (hr : i.val = r.val) :
    s.serveNext p = (s.pointing p i).serveRoute p r := by
  have hlt : i.val < 8 := hr ▸ r.isLt
  unfold State.serveNext
  rw [State.firstAfter_find h]
  dsimp only
  rw [dif_pos hlt]
  congr 1
  exact Fin.ext hr

theorem State.serveNext_reread (h : s.firstAfter p (s.ports.get p).pointer 8) : s.serveNext p = (s.pointing p 8).serveReread p := by
  unfold State.serveNext
  rw [State.firstAfter_find h]
  rfl

/-! ## Segments (R133, R134, R147) -/

theorem State.sendSegment_begins (s : State) (p : Port) (r : Fin 8) (d : Delivery) (span : TileSpan) (c n : Nat) :
    s.beginsSegment (s.sendSegment p r d span c n) p r d span c n := by
  refine ⟨_, decide_eq_true_iff, ?_⟩
  rw [State.sendSegment, State.send, State.setPort_get_self]
  rfl

/-- A tile begun on a route: its span is fixed, and its first segment is begun. -/
theorem State.beginTile_spec (s : State) (p : Port) (r : Fin 8) (d : Delivery) (c n : Nat) :
    ((s.beginTile p r d c n).ports.get p).tile = some (.route r)
      ∧ s.beginsSegment (s.beginTile p r d c n) p r d (s.spanOf p (s.slot d.slot) d.cursor.band c n) c n := by
  have hspan : TileSpan.mk ((s.slot d.slot).tileStop d.cursor.band)
      (rowsPerSegment (s.ports.get p).record.maxSegment ((s.slot d.slot).geometry.tileColumnWidth (layerSide n) c))
        = s.spanOf p (s.slot d.slot) d.cursor.band c n := by
    unfold State.spanOf Slot.tileStop
    dsimp only
    cases (s.slot d.slot).rowCount <;> rfl
  refine ⟨?_, _, decide_eq_true_iff, ?_⟩
  · unfold State.beginTile State.sendSegment State.send
    dsimp only
    rw [State.setPort_get_self, State.setPort_get_self]
  · rw [← hspan]
    unfold State.beginTile State.sendSegment State.send
    dsimp only
    rw [State.setPort_get_self]
    rfl

theorem State.serveReread_begins {e : Reread} {es : List Reread} (h : s.dle.rereads.get p = e :: es) :
    s.beginsReread (s.serveReread p) p e := by
  unfold State.serveReread
  rw [h]
  dsimp only
  refine ⟨?_, _, decide_eq_true_iff, ?_⟩
  · rw [State.send, State.setPort_get_self, State.setPort_get_self]
  · rw [State.send, State.setPort_get_self]
    rfl

/-! ## FRAME_END (R132) -/

theorem frameEndPacket_isFrameEnd (r : Fin 8) (revoked : Bool) (x : Slot) : (frameEndPacket r revoked x).isFrameEnd r revoked x := by
  refine ⟨rfl, rfl, fun hrows hreason => ?_, fun n reason hrows hreason => ?_⟩
  · unfold frameEndPacket
    dsimp only
    rw [hrows, hreason]
    rfl
  · have hbit : bits [x.overflow] = x.overflow.toNat := by cases x.overflow <;> rfl
    unfold frameEndPacket
    simp only [hrows, hreason, Option.isSome_some, if_true, Option.getD_some, Bool.true_and, hbit]
    rfl

end Serve

end Sys2Proof.Machine

/-! # Every class of the arbiter, and the ports' choices as one (R159) -/

namespace Sys2Proof.Machine

section Units

variable {s : State} {p : Port}

theorem State.send_get (s : State) (p : Port) (x : TxSource) (k : Packet) :
    (s.send p x k).ports.get p = { s.ports.get p with tx := some { source := x, packet := k } } := s.setPort_get_self p _

/-! ## The tile in progress (R145, R159) -/

/-- The next packet of a route's tile: its next segment, or the TILE_ABORT that a revoke flag puts in its place. -/
theorem State.continueTile_spec {r : Fin 8} {d : Delivery} {plan : Plan} {span : TileSpan} {c n : Nat} (hd : s.current r = some d)
    (hplan : d.plan = some plan) (hspan : d.span = some span)
    (htile : (plan.bandTiles (s.slot d.slot).geometry)[d.cursor.index]? = some (c, n)) :
    (¬ (d.revoke = true ∧ d.tileOpen = true) → s.beginsSegment (s.continueTile p r) p r d span c n)
      ∧ (d.revoke = true → d.tileOpen = true →
        ((s.continueTile p r).ports.get p).tx = some
          { source := .tileAbort r d.alloc,
            packet :=
              { kind := 0x84, stream := r.val, tag := (s.slot d.slot).frame % 65536,
                payload := le 4 (s.slot d.slot).frame ++ le 1 n ++ le 1 c ++ le 2 d.cursor.band ++ le 2 d.cursor.row
                  ++ le 1 1 ++ le 1 0 } }) := by
  have hcontinue : s.continueTile p r =
      if d.revoke = true ∧ d.tileOpen = true then
        s.send p (.tileAbort r d.alloc) (tileAbortPacket r (s.slot d.slot).frame n c d.cursor.band d.cursor.row)
      else s.sendSegment p r d span c n := by
    unfold State.continueTile
    rw [hd]
    dsimp only
    rw [hplan, hspan]
    dsimp only
    rw [htile]
  refine ⟨fun hno => ?_, fun hv ho => ?_⟩
  · rw [hcontinue, if_neg hno]
    exact s.sendSegment_begins p r d span c n
  · rw [hcontinue, if_pos ⟨hv, ho⟩, State.send_get]
    rfl

/-! ## One unit of a source (R160) -/

theorem State.serveRoute_pointer (s : State) (p : Port) (r : Fin 8) :
    ((s.serveRoute p r).ports.get p).pointer = (s.ports.get p).pointer := by
  unfold State.serveRoute
  split
  · rw [State.send_get]
  · unfold State.beginTile State.sendSegment
    dsimp only
    rw [State.send_get, State.setPort_get_self]
    rfl
  · rw [State.send_get]
  · rfl

theorem State.serveReread_pointer (s : State) (p : Port) : ((s.serveReread p).ports.get p).pointer = (s.ports.get p).pointer := by
  unfold State.serveReread
  split
  · rfl
  · dsimp only
    rw [State.send_get, State.setPort_get_self]
    rfl

/-- The unit that a route's offer names. -/
theorem State.serveRoute_spec {r : Fin 8} {d : Delivery} (hd : s.current r = some d) :
    (∀ k, s.offer r = some (.frameOpen k) →
        ((s.serveRoute p r).ports.get p).tx = some { source := .frameOpen r d.alloc, packet := k })
      ∧ (∀ revoked, s.offer r = some (.frameEnd revoked) →
        ∃ k, k.isFrameEnd r revoked (s.slot d.slot)
          ∧ ((s.serveRoute p r).ports.get p).tx = some { source := .frameEnd r d.alloc revoked, packet := k })
      ∧ ∀ c n, s.offer r = some (.tile c n) →
        ((s.serveRoute p r).ports.get p).tile = some (.route r)
          ∧ s.beginsSegment (s.serveRoute p r) p r d (s.spanOf p (s.slot d.slot) d.cursor.band c n) c n := by
  unfold State.serveRoute
  rw [hd]
  refine ⟨fun k hk => ?_, fun revoked hk => ⟨_, frameEndPacket_isFrameEnd r revoked (s.slot d.slot), ?_⟩, fun c n hk => ?_⟩ <;> rw [hk]
  · exact congrArg HostPort.tx (s.send_get p _ k)
  · exact congrArg HostPort.tx (s.send_get p _ _)
  · exact s.beginTile_spec p r d c n

/-- Moving the pointer changes nothing that a source's unit turns on. -/
theorem State.pointing_record (s : State) (p : Port) (i : Fin 9) :
    ((s.pointing p i).ports.get p).record = (s.ports.get p).record ∧ ((s.pointing p i).ports.get p).pointer = i := by
  rw [State.pointing, State.setPort_get_self]
  exact ⟨rfl, rfl⟩

theorem State.pointing_spanOf (s : State) (p : Port) (i : Fin 9) (x : Slot) (band c n : Nat) :
    (s.pointing p i).spanOf p x band c n = s.spanOf p x band c n := by
  unfold State.spanOf
  rw [(s.pointing_record p i).1]

theorem State.pointing_rereadRows (s : State) (p : Port) (i : Fin 9) (e : Reread) :
    (s.pointing p i).rereadRows p e = s.rereadRows p e := by
  unfold State.rereadRows
  rw [(s.pointing_record p i).1]
  rfl

/-- With no tile in progress and no port record staged, the first source after the pointer is served, and the pointer names it. -/
theorem State.serveNext_spec {i : Fin 9} (h : s.firstAfter p (s.ports.get p).pointer i) :
    ((s.serveNext p).ports.get p).pointer = i
      ∧ (∀ e es, i = 8 → s.dle.rereads.get p = e :: es → s.beginsReread (s.serveNext p) p e)
      ∧ ∀ (r : Fin 8) d, i.val = r.val → s.current r = some d →
        (∀ k, s.offer r = some (.frameOpen k) →
            ((s.serveNext p).ports.get p).tx = some { source := .frameOpen r d.alloc, packet := k })
          ∧ (∀ revoked, s.offer r = some (.frameEnd revoked) →
            ∃ k, k.isFrameEnd r revoked (s.slot d.slot)
              ∧ ((s.serveNext p).ports.get p).tx = some { source := .frameEnd r d.alloc revoked, packet := k })
          ∧ ∀ c n, s.offer r = some (.tile c n) →
            ((s.serveNext p).ports.get p).tile = some (.route r)
              ∧ s.beginsSegment (s.serveNext p) p r d (s.spanOf p (s.slot d.slot) d.cursor.band c n) c n := by
  refine ⟨?_, fun e es hi he => ?_, fun r d hr hd => ?_⟩
  · by_cases hi : i.val < 8
    · rw [State.serveNext_route h (r := ⟨i.val, hi⟩) rfl, State.serveRoute_pointer, (s.pointing_record p i).2]
    · obtain rfl : i = 8 := Fin.ext (Nat.le_antisymm (Nat.le_of_lt_succ i.isLt) (Nat.not_lt.mp hi))
      rw [State.serveNext_reread h, State.serveReread_pointer, (s.pointing_record p 8).2]
  · subst hi
    obtain ⟨htile, last, hlast, htx⟩ := State.serveReread_begins (s := s.pointing p 8) (p := p) he
    rw [s.pointing_rereadRows p 8 e] at hlast htx
    rw [State.serveNext_reread h]
    exact ⟨htile, last, hlast, htx⟩
  · obtain ⟨hopen, hend, htile⟩ := State.serveRoute_spec (s := s.pointing p i) (p := p) (r := r) (d := d) hd
    have hoffer : (s.pointing p i).offer r = s.offer r := State.offer_congr rfl rfl rfl
    rw [State.serveNext_route h hr]
    rw [hoffer] at hopen hend htile
    refine ⟨hopen, hend, fun c n hk => ?_⟩
    obtain ⟨hat, hbegins⟩ := htile c n hk
    rw [s.pointing_spanOf p i] at hbegins
    exact ⟨hat, hbegins⟩

end Units

/-- With nothing to send before them, the units of a port: the tile in progress first, and no new unit while a port record is staged. -/
theorem State.choose_spec {s : State} {p : Port} (hc : s.mayChoose p = true)
    (hr : ∀ k, (s.ports.get p).replies.head? ≠ some (some k)) (hn : (s.ports.get p).notices = []) :
    (∀ r, (s.ports.get p).tile = some (.route r) → s.choose p = s.continueTile p r)
      ∧ ((s.ports.get p).tile = some .reread → s.choose p = s.serveReread p)
      ∧ ((s.ports.get p).tile = none → (s.ports.get p).staged.isSome = true → s.choose p = s)
      ∧ ((s.ports.get p).tile = none → (s.ports.get p).staged = none → s.choose p = s.serveNext p) := by
  rw [State.choose_unit hc hr hn]
  unfold State.serveUnit
  refine ⟨fun r ht => ?_, fun ht => ?_, fun ht hs => ?_, fun ht hs => ?_⟩ <;> rw [ht]
  · dsimp only
    rw [if_pos hs]
  · dsimp only
    rw [hs]
    rfl

/-- Settles O3: what the ports' choices leave, one port's choices, the FRAME_OPENs formed, what a route offers, and the packet begun. -/
theorem portChoicesLeaveTheRest : Obligations.PortChoicesLeaveTheRest := by
  refine ⟨fun s lead => ?_, fun s p lead => ⟨rfl, fun q hq => s.settlePort_get_ne hq lead, fun hl => ?_⟩,
    fun s p r d hl hr hd hrec => s.formOpens_forms p r d hl hr hd hrec, fun s r d hd => ?_, fun s p hl hx hdue => ?_⟩
  · refine ⟨by simp [State.sameCapture], by simp [State.sameControl], State.sameDelivery_settle (State.sameDelivery_of_dle rfl) lead,
      fun p => ⟨s.settle_queues lead p, ?_⟩⟩
    obtain ⟨t, hget, hport, -⟩ := s.settle_port lead p
    rw [hget, ← hport]
    exact t.settlePort_keeps p lead
  · obtain ⟨hrecord, htimer, -⟩ := HostPort.of_unchosen ((s.formOpens p).choose_unchosen p)
    have hspec := s.settlePort_up p lead hl
    unfold State.restsNow at hspec
    rw [hrecord, htimer] at hspec
    simpa only [State.choose_frame, State.formOpens_frame] using hspec
  · obtain ⟨h1, h2, h3, h4, h5⟩ := State.offer_spec hd
    refine ⟨h1, h2, h3, h4, h5, fun plan ho ht hv hp hplan => ?_⟩
    rw [State.offer_next hd ho ht hv hp]
    exact s.offerNext_spec hplan
  · have hc := State.mayChoose_of hl hx hdue
    refine ⟨fun k hk => ?_, fun k hr hk => ?_, fun hr hn => ?_⟩
    · rw [State.choose_reply hc hk, State.send_get]
    · rw [State.choose_notice hc hr hk, State.send_get]
    · obtain ⟨hroute, hreread, hwaits, hnext⟩ := State.choose_spec hc hr hn
      refine ⟨fun r d plan span c n ht hd hplan hspan htile => ?_, fun e es ht he => ?_, fun ht hs => hwaits ht hs, fun ht hs => ?_⟩
      · rw [hroute r ht]
        exact State.continueTile_spec hd hplan hspan htile
      · rw [hreread ht]
        exact State.serveReread_begins he
      · rw [hnext ht hs]
        refine ⟨fun hoffers hrereads => State.serveNext_none fun i => ?_, fun i hi => State.serveNext_spec hi⟩
        rw [Bool.eq_false_iff]
        intro hi
        rcases (s.eligible_iff p i).mp hi with ⟨r, -, hr, ho⟩ | ⟨-, ho⟩
        · exact ho (hoffers r hr)
        · exact ho hrereads

end Sys2Proof.Machine
